-- ==== Sys2Proof/Word.lean ====
section
/-!
DEFINITION. The word types of the core: bytes, CRC words, and sample positions.
-/

namespace Sys2Proof

/-- A byte of a frame, and the 8-bit window and accumulator (00_scope.md R7: unsigned, bit 0 least significant). -/
abbrev Byte := BitVec 8

/-- The 16-bit word of the CRC engine (40_crc.md R101). -/
abbrev Crc := BitVec 16

/-- A sample position: "a monotonically increasing integer identifying a point in the trace timeline"
(00_scope.md R12). `POS_W` is open; the spec's default is the natural numbers (92_eei_decisions.md D6; log entry 3). -/
abbrev Position := Nat

end Sys2Proof
end

