-- ==== Sys2Proof/Config.lean ====
section
/-!
DEFINITION. The parameters of the core that the spec fixes (00_scope.md R6), the constraint on the one the
spec leaves open, and the one free value of the model.
-/

namespace Sys2Proof.Config

/-- `RING_DEPTH` (00_scope.md R6): entries of the edge-position ring. -/
def ringDepth : Nat := 16

/-- `IDLE_T` (00_scope.md R6): the idle threshold and the cap of `idle_cnt`. -/
def idleT : Nat := 15

/-- `MIN_FRAME` (00_scope.md R6): fewest bytes a closed frame needs for a CRC check. -/
def minFrame : Nat := 6

/-- `CLOSE_MIN` (00_scope.md R6): fewest buffered bytes for a FLAG to close a frame. -/
def closeMin : Nat := 2

/-- `FCS_LEN` (00_scope.md R6): trailer bytes that hold the CRC. -/
def fcsLen : Nat := 2

/-- `CRC_POLY_R` (00_scope.md R6): the reflected CRC polynomial. -/
def crcPolyR : Crc := 0x8408

/-- `CRC_INIT` (00_scope.md R6). -/
def crcInit : Crc := 0xFFFF

/-- `CRC_XOROUT` (00_scope.md R6). -/
def crcXorOut : Crc := 0xFFFF

/-- The spec's constraint on the open parameter `FRAME_CAP` (92_eei_decisions.md, Open parameters):
unbounded, or at least `MIN_FRAME`. -/
def frameCapOk : Option Nat → Bool
  | none => true
  | some c => decide (minFrame ≤ c)

/-- FREE VALUE (log entry 7): the positions that the ring's entries hold after a RESET cycle, which the spec
calls unspecified (70_reset_and_hazards.md R260, R261). It has no body: nothing can prove a value of it. -/
opaque freePosition : Nat → Position

end Sys2Proof.Config
end

