-- ==== Sys2Proof/Syntax.lean ====
section
/-!
DEFINITION. The decode rows of the core. The core executes no instructions (30_encoding.md, opening): what it
decodes are four words, one format each, and every row of spec/opcode_table.json is a constructor of `Instr`.
-/

namespace Sys2Proof

/-- The framing state (10_state.md R23, 43_framer.md R160). -/
inductive FState where
  /-- No frame is open. Code 0. -/
  | searching
  /-- A frame is open. Code 1. -/
  | frameActive
  deriving DecidableEq, Repr

/-- The Bit Classifier's verdict on the current bit (41_classifier.md R121). -/
inductive BitClass where
  | flag
  | abort
  | stuffed
  /-- DATA carries the bit value (41_classifier.md R125). -/
  | data (b : Bool)
  deriving DecidableEq, Repr

/-- The four decode formats of spec/opcode_table.json. -/
inductive Format where
  /-- The 8-bit classification window (30_encoding.md R73, R74). -/
  | win8
  /-- The control word `rst << 1 | in_valid` of the input port (30_encoding.md R71). -/
  | ctrl2
  /-- The framer's action word `class_code << 1 | fstate` (30_encoding.md R78). -/
  | act3
  /-- The accepted bit, which the idle detector decodes (30_encoding.md R78, 42_idle.md R140). -/
  | bit1
  deriving DecidableEq, Repr

/-- One constructor per row of spec/opcode_table.json. An operand holds the bits of the row's word that its
match and mask leave open, so that no bit of an encoding is lost. -/
inductive Instr where
  /-- FLAG, `01111110` (41_classifier.md R122). -/
  | flag
  /-- ABORT, `01111111` (41_classifier.md R123). -/
  | abort
  /-- STUFFED, `xx111110`; `hi` is the window's bits 7..6 (41_classifier.md R124). -/
  | stuffed (hi : BitVec 2)
  /-- DATA, any other window; `w` is the whole window and its bit 0 the bit carried (41_classifier.md R125). -/
  | data (w : BitVec 8)
  /-- RESET, `1x`; the bit `in_valid` is ignored (30_encoding.md R71, 70_reset_and_hazards.md R260). -/
  | reset (inValid : Bool)
  /-- STEP, `01` (44_step.md R203). -/
  | step
  /-- HOLD, `00` (44_step.md R208). -/
  | hold
  /-- FLAG_OPEN, `000` (43_framer.md R163). -/
  | flagOpen
  /-- FLAG_CLOSE_OPEN, `001` with two bytes or more buffered (43_framer.md R164). -/
  | flagCloseOpen
  /-- FLAG_RESYNC, `001` with at most one byte buffered (43_framer.md R165). -/
  | flagResync
  /-- ABORT_DISCARD, `01x`; the framing state is ignored (43_framer.md R166). -/
  | abortDiscard (fs : FState)
  /-- STUFFED_IGNORE, `100` (43_framer.md R167). -/
  | stuffedIgnore
  /-- STUFFED_DISCARD, `101` (43_framer.md R168). -/
  | stuffedDiscard
  /-- DATA_IGNORE, `110` (43_framer.md R170). -/
  | dataIgnore
  /-- DATA_FOLD, `111` (43_framer.md R172). -/
  | dataFold
  /-- IDLE_ONE, `1` (42_idle.md R140). -/
  | idleOne
  /-- IDLE_ZERO, `0` (42_idle.md R140). -/
  | idleZero
  deriving DecidableEq, Repr

end Sys2Proof
end

