-- ==== Sys2Proof/Machine/State.lean ====
section
/-!
DEFINITION. The state of the core (10_state.md R20), its two ports as data (30_encoding.md R70, R80, R81), the
reasons a step can stop, and the state right after reset (70_reset_and_hazards.md R260).
-/

namespace Sys2Proof.Machine

/-- The model's one fault (60_exceptions.md R231). -/
inductive Fault where
  /-- `FrameOverflow`. Raised by FbufAppend (20_memory.md R57), from DATA_FOLD, when `FRAME_CAP` is finite and a
  byte completes while the buffer is full. It is recorded in `State.fault` and stays there until RESET
  (60_exceptions.md R232); no meaning answers it as an outcome. Safe: it removes runs and adds no output. -/
  | frameOverflow
  deriving DecidableEq, Repr

/-- Why the model gives an instruction no meaning. -/
inductive Refusal where
  /-- A row of the table without a meaning. Raised by no arm: every row has its meaning. Safe. -/
  | notModelled (mnemonic : String)
  deriving DecidableEq, Repr

/-- The kinds of event (30_encoding.md R81). -/
inductive EventKind where
  | flag
  | abort
  | idle
  | byte
  | frameResult
  deriving DecidableEq, Repr

/-- An event record (30_encoding.md R81). Fields a kind does not use are 0. -/
structure Event where
  /-- `kind`. -/
  kind : EventKind
  /-- `start`: span start. -/
  start : Position
  /-- `end`: span end, the current bit's own position (90_conflicts.md C12). -/
  stop : Position
  /-- `value`: the assembled byte of a BYTE. -/
  value : Byte
  /-- `count`: `len(fbuf)` at close, of a FRAME_RESULT (`COUNT_W` is open: log entry 5). -/
  count : Nat
  /-- `crc_valid`. -/
  crcValid : Bool
  /-- `too_short`. -/
  tooShort : Bool
  deriving DecidableEq, Repr

/-- The input port, one bundle per clock cycle (30_encoding.md R70). -/
structure PortIn where
  rst : Bool
  inValid : Bool
  /-- `d_pri`: the primary data level. -/
  dPri : Bool
  /-- `d_sec`: the level of the secondary driven-data line. -/
  dSec : Bool
  dSecPresent : Bool
  /-- `en_sec`: the level of the secondary-enable line. -/
  enSec : Bool
  enSecPresent : Bool
  /-- `pos`: the sample position. -/
  pos : Position
  deriving DecidableEq, Repr

/-- The bundle of a cycle in which nothing is presented: `rst = 0`, `in_valid = 0` (44_step.md R208). -/
def PortIn.quiet : PortIn := ⟨false, false, false, false, false, false, false, 0⟩

/-- The state: the record of 10_state.md R20, then the two ports as data and the model's own two fields. -/
structure State where
  /-- `sr`: the raw-bit shift register, newest bit at bit 0 (R21). -/
  sr : BitVec 8
  /-- `ring[0..15]`: sample positions (R22). -/
  ring : Vector Position 16
  /-- `ring_wp`: the next entry to write (R22). -/
  ringWp : BitVec 4
  /-- `ring_fill`: the number of valid entries, 0..16 (R22). -/
  ringFill : BitVec 5
  /-- `fstate` (R23). -/
  fstate : FState
  /-- `acc`: the byte-in-progress accumulator (R24). -/
  acc : Byte
  /-- `cnt`: the byte-in-progress bit count (R24). -/
  cnt : BitVec 3
  /-- `fbuf`: the frame buffer, first byte first (R25). -/
  fbuf : List Byte
  /-- `frame_start` (R26). -/
  frameStart : Position
  /-- `byte_start` (R27). -/
  byteStart : Position
  /-- `idle_cnt`: the saturating idle counter (R28). -/
  idleCnt : BitVec 4
  /-- `fault`: the sticky fault mark (60_exceptions.md R232). -/
  fault : Option Fault
  /-- The input bundles of this clock cycle and the coming ones, nearest first (log entry 1). -/
  input : List PortIn
  /-- The output port: the events of the cycle, in emission order (30_encoding.md R80; log entry 2). -/
  out : List Event
  /-- The build parameter `FRAME_CAP`: none is unbounded (00_scope.md R6; log entry 4). -/
  frameCap : Option Nat
  /-- How many free positions have been drawn (log entry 7). -/
  freeDraws : Nat
  deriving DecidableEq, Repr

/-- The machine right after reset (70_reset_and_hazards.md R260, R261). The ring's entries, which the spec
leaves unspecified, are 0 by the model's choice (log entry 6). -/
def State.reset : State where
  sr := 0
  ring := Vector.replicate 16 0
  ringWp := 0
  ringFill := 0
  fstate := .searching
  acc := 0
  cnt := 0
  fbuf := []
  frameStart := 0
  byteStart := 0
  idleCnt := 0
  fault := none
  input := []
  out := []
  frameCap := none
  freeDraws := 0

end Sys2Proof.Machine
end

