-- ==== Sys2Proof/Machine/Crc.lean ====
section
/-!
DEFINITION. The CRC-16/X.25 engine (40_crc.md R100 to R103): the checksum, the fold it is made of, and the
running form with a two-byte delay that R102 allows an implementation to use instead.
-/

namespace Sys2Proof.Machine

/-- One of the 8 rounds for a byte (40_crc.md R100, R101). -/
def crcRound (a : Crc) : Crc :=
  if a.getLsbD 0 then (a >>> 1) ^^^ Config.crcPolyR else a >>> 1

/-- `n` rounds. -/
def crcRounds : Nat → Crc → Crc
  | 0, a => a
  | n + 1, a => crcRounds n (crcRound a)

/-- `step(a, x)` of 40_crc.md R102: the XOR into the low 8 bits and 8 rounds. -/
def crcByte (a : Crc) (x : Byte) : Crc := crcRounds 8 (a ^^^ x.setWidth 16)

/-- `raw(a, s)` of 40_crc.md R103: the fold over the bytes, from `a`, without the final XOR. -/
def crcRaw (a : Crc) (s : List Byte) : Crc := s.foldl crcByte a

/-- `crc16_x25(s)` (40_crc.md R100). -/
def crc16X25 (s : List Byte) : Crc := crcRaw Config.crcInit s ^^^ Config.crcXorOut

/-- The running CRC of 40_crc.md R102: an accumulator over all bytes but the last two, which wait in a delay
line, oldest first. -/
structure RunningCrc where
  acc : Crc
  delay : List Byte
  deriving DecidableEq, Repr

/-- The running CRC before a frame's first byte. -/
def runningCrcStart : RunningCrc := ⟨Config.crcInit, []⟩

/-- The running CRC takes a byte: a full delay line passes its oldest byte to the accumulator (40_crc.md R102). -/
def runningCrcPush (r : RunningCrc) (x : Byte) : RunningCrc :=
  match r.delay with
  | d :: e :: rest => ⟨crcByte r.acc d, (e :: rest) ++ [x]⟩
  | short => ⟨r.acc, short ++ [x]⟩

/-- The running CRC's verdict at the close: the accumulator, complemented, against the delay line read as a
little-endian value (40_crc.md R102, 43_framer.md R182). -/
def runningCrcVerdict (r : RunningCrc) : Bool :=
  r.acc ^^^ Config.crcXorOut == (r.delay.getD 0 0).setWidth 16 ||| ((r.delay.getD 1 0).setWidth 16 <<< 8)

end Sys2Proof.Machine
end

