-- ==== Sys2Proof/WellFormed.lean ====
section
/-!
DEFINITION. Which terms of `Instr` stand for a word of their row: the priority of the window rows
(30_encoding.md R74) and the buffer condition of the two rows that share an action code (R78).
-/

namespace Sys2Proof

/-- A row's operands name a word that the row decodes (30_encoding.md R74). A STUFFED window is not the FLAG
window, and a DATA window is none of the rows above it. -/
def Instr.wellFormed : Instr → Bool
  | .stuffed hi => hi != 0b01#2
  | .data w => w != 0x7E#8 && w != 0x7F#8 && (w &&& 0x3F#8) != 0x3E#8
  | .flag | .abort | .reset _ | .step | .hold => true
  | .flagOpen | .flagCloseOpen | .flagResync | .abortDiscard _ => true
  | .stuffedIgnore | .stuffedDiscard | .dataIgnore | .dataFold => true
  | .idleOne | .idleZero => true

/-- The condition on `len(fbuf)` under which a row is the one selected (30_encoding.md R78: the two FLAG rows
in FRAME_ACTIVE "share the code 0b001 and are told apart by `len(fbuf)`"). -/
def Instr.admits (fbufLen : Nat) : Instr → Bool
  | .flagCloseOpen => decide (Config.closeMin ≤ fbufLen)
  | .flagResync => decide (fbufLen < Config.closeMin)
  | .flag | .abort | .stuffed _ | .data _ | .reset _ | .step | .hold => true
  | .flagOpen | .abortDiscard _ | .stuffedIgnore | .stuffedDiscard | .dataIgnore | .dataFold => true
  | .idleOne | .idleZero => true

end Sys2Proof
end

