-- ==== Sys2Proof/Decode.lean ====
section
/-!
DEFINITION. The four decoders of the core (30_encoding.md R71, R74, R78; 42_idle.md R140), total on every word,
and the encoder written from the same tables.
-/

namespace Sys2Proof

/-- Why a word names no row: it does not fit the format's width. -/
inductive DecodeError where
  /-- The word has a bit set above the format's width. -/
  | tooWide (f : Format)
  deriving DecidableEq, Repr

/-- The width in bits of a format's word (30_encoding.md R71, R73, R78). -/
def Format.width : Format → Nat
  | .win8 => 8
  | .ctrl2 => 2
  | .act3 => 3
  | .bit1 => 1

/-- The framing state's code (10_state.md R20): SEARCHING = 0, FRAME_ACTIVE = 1. -/
def FState.code : FState → BitVec 1
  | .searching => 0
  | .frameActive => 1

/-- The framing state of a code (10_state.md R20). -/
def FState.ofBit (b : Bool) : FState := if b then .frameActive else .searching

/-- The class codes of 30_encoding.md R77. -/
def BitClass.code : BitClass → BitVec 2
  | .flag => 0
  | .abort => 1
  | .stuffed => 2
  | .data _ => 3

/-- `Classify(w)` (41_classifier.md R121): the tests in the spec's priority order. -/
def classify (w : BitVec 8) : BitClass :=
  if w = 0x7E#8 then .flag
  else if w = 0x7F#8 then .abort
  else if w &&& 0x3F#8 = 0x3E#8 then .stuffed
  else .data (w.getLsbD 0)

/-- Decode of the classification window (30_encoding.md R74). -/
def decodeWin8 (w : BitVec 8) : Instr :=
  match classify w with
  | .flag => .flag
  | .abort => .abort
  | .stuffed => .stuffed (w.extractLsb' 6 2)
  | .data _ => .data w

/-- Control decode of the input port's word `rst << 1 | in_valid` (30_encoding.md R71): `rst` has priority. -/
def decodeCtrl2 (w : BitVec 2) : Instr :=
  if w.getLsbD 1 then .reset (w.getLsbD 0)
  else if w.getLsbD 0 then .step
  else .hold

/-- The framer's action decode (30_encoding.md R78) of the word `class_code << 1 | fstate`; `fbufLen` is
`len(fbuf)`, which tells the two rows with code `001` apart. -/
def decodeAct3 (fbufLen : Nat) (w : BitVec 3) : Instr :=
  if w = 0b000#3 then .flagOpen
  else if w = 0b001#3 then (if Config.closeMin ≤ fbufLen then .flagCloseOpen else .flagResync)
  else if w &&& 0b110#3 = 0b010#3 then .abortDiscard (FState.ofBit (w.getLsbD 0))
  else if w = 0b100#3 then .stuffedIgnore
  else if w = 0b101#3 then .stuffedDiscard
  else if w = 0b110#3 then .dataIgnore
  else .dataFold

/-- The idle detector's decode of the accepted bit (42_idle.md R140). -/
def decodeBit1 (w : BitVec 1) : Instr :=
  if w.getLsbD 0 then .idleOne else .idleZero

/-- Decode of a word of a format, right-aligned in a byte. A word too wide for its format is rejected by name;
every other word has a row (30_encoding.md R76). -/
def decode (f : Format) (fbufLen : Nat) (w : BitVec 8) : Except DecodeError Instr :=
  if w.toNat < 2 ^ f.width then
    match f with
    | .win8 => .ok (decodeWin8 w)
    | .ctrl2 => .ok (decodeCtrl2 (w.setWidth 2))
    | .act3 => .ok (decodeAct3 fbufLen (w.setWidth 3))
    | .bit1 => .ok (decodeBit1 (w.setWidth 1))
  else .error (.tooWide f)

/-- The format a row's word has in spec/opcode_table.json. -/
def Instr.format : Instr → Format
  | .flag | .abort | .stuffed _ | .data _ => .win8
  | .reset _ | .step | .hold => .ctrl2
  | .flagOpen | .flagCloseOpen | .flagResync | .abortDiscard _ => .act3
  | .stuffedIgnore | .stuffedDiscard | .dataIgnore | .dataFold => .act3
  | .idleOne | .idleZero => .bit1

/-- A row's word, right-aligned in a byte, from the match values of 30_encoding.md R71, R74 and R78. -/
def encode : Instr → BitVec 8
  | .flag => 0x7E
  | .abort => 0x7F
  | .stuffed hi => hi ++ 0b111110#6
  | .data w => w
  | .reset v => 0#6 ++ (1#1 ++ BitVec.ofBool v)
  | .step => 0b01
  | .hold => 0b00
  | .flagOpen => 0b000
  | .flagCloseOpen => 0b001
  | .flagResync => 0b001
  | .abortDiscard fs => 0#5 ++ (0b01#2 ++ fs.code)
  | .stuffedIgnore => 0b100
  | .stuffedDiscard => 0b101
  | .dataIgnore => 0b110
  | .dataFold => 0b111
  | .idleOne => 0b1
  | .idleZero => 0b0

/-- The action word of a class in a framing state (30_encoding.md R78). -/
def actWord (c : BitClass) (fs : FState) : BitVec 8 := 0#5 ++ (c.code ++ fs.code)

/-- Which format a bare table word is read in, given how many bits it has. A width of 1, 2 or 3 names its
format. A whole byte does not, because the formats' words overlap there: the values 0 to 3 are read as control
words, 4 to 7 as action words, the rest as windows (log entry 13). -/
def tableFormat (nbits w : Nat) : Format :=
  if nbits = 1 then .bit1
  else if nbits = 2 then .ctrl2
  else if nbits = 3 then .act3
  else if w < 4 then .ctrl2
  else if w < 8 then .act3
  else .win8

/-- The row the decoders read from a bare word of spec/opcode_table.json with an empty frame buffer; none
where the word is too wide for the format it is read in (log entry 13). -/
def decodeTableWord (nbits w : Nat) : Option Instr :=
  if w < 256 then
    match decode (tableFormat nbits w) 0 (BitVec.ofNat 8 w) with
    | .ok i => some i
    | .error _ => none
  else none

end Sys2Proof
end

