-- ==== Sys2Proof/Machine/Operands.lean ====
section
/-!
DEFINITION. Operand assembly (30_encoding.md R85): the accepted bit, the classification window, the byte in
progress and the received check value.
-/

namespace Sys2Proof.Machine

/-- A bit as a byte, in bit 0. -/
def bitByte (b : Bool) : Byte := (BitVec.ofBool b).setWidth 8

/-- `SelectBit(sample)` (44_step.md R201). -/
def selectBit (p : PortIn) : Bool :=
  if p.enSecPresent && p.enSec && p.dSecPresent then p.dSec else p.dPri

/-- The control word `rst << 1 | in_valid` of a bundle (30_encoding.md R71). -/
def PortIn.ctrl (p : PortIn) : BitVec 8 :=
  0#6 ++ (BitVec.ofBool p.rst ++ BitVec.ofBool p.inValid)

/-- The window after bit `b` is shifted in (41_classifier.md R120): `((sr << 1) | b) & 0xFF`. -/
def shiftWindow (sr : BitVec 8) (b : Bool) : BitVec 8 := (sr <<< 1) ||| bitByte b

/-- The accumulator with bit `b` folded in at position `cnt` (43_framer.md R172; 20_memory.md R60: the first
bit received becomes bit 0). -/
def foldBit (acc : Byte) (cnt : BitVec 3) (b : Bool) : Byte := acc ||| (bitByte b <<< cnt.toNat)

/-- The received check value, `fbuf[n-2] | (fbuf[n-1] << 8)` (20_memory.md R62). -/
def receivedCheck (fbuf : List Byte) : Crc :=
  (fbuf.getD (fbuf.length - 2) 0).setWidth 16 ||| ((fbuf.getD (fbuf.length - 1) 0).setWidth 16 <<< 8)

end Sys2Proof.Machine
end

