-- ==== Sys2Proof/Machine/Flags.lean ====
section
/-!
DEFINITION. The two error indications of a FRAME_RESULT (10_state.md R31: they are fields of an event record,
not kept as state): `too_short` and `crc_valid`.
-/

namespace Sys2Proof.Machine

/-- `too_short`: fewer than `MIN_FRAME` bytes (43_framer.md R180, R181). -/
def tooShort (fbuf : List Byte) : Bool := decide (fbuf.length < Config.minFrame)

/-- `expected = received` (43_framer.md R180, R182): the CRC over all bytes but the last two against these two. -/
def crcMatches (fbuf : List Byte) : Bool :=
  crc16X25 (fbuf.take (fbuf.length - Config.fcsLen)) == receivedCheck fbuf

/-- `crc_valid`: 0 for a too-short frame, else the CRC verdict (43_framer.md R180). -/
def crcValid (fbuf : List Byte) : Bool := !tooShort fbuf && crcMatches fbuf

end Sys2Proof.Machine
end

