-- ==== Sys2Proof/Machine/Ops.lean ====
section
/-!
DEFINITION. The named operations over the state: the ports, the edge ring (20_memory.md R52, R53), the frame
buffer (R57, R59), event emission (30_encoding.md R80, R81), taking a fault and clearing it
(60_exceptions.md R232, 70_reset_and_hazards.md R260).
-/

namespace Sys2Proof.Machine

/-! ### Ports -/

/-- The bundle of this clock cycle; a cycle for which nothing is left is quiet (44_step.md R208, R209). -/
def State.port (s : State) : PortIn := s.input.headD PortIn.quiet

/-- `events <- []` (44_step.md R203): the output port at the start of a cycle. -/
def clearEvents (s : State) : State := { s with out := [] }

/-- `Emit(ev)` (30_encoding.md R80). -/
def emit (e : Event) (s : State) : State := { s with out := s.out ++ [e] }

/-- `ev_n` (30_encoding.md R80). -/
def State.evN (s : State) : Nat := s.out.length

/-- `ev0`, valid when `ev_n >= 1` (30_encoding.md R80). -/
def State.ev0 (s : State) : Option Event := s.out[0]?

/-- `ev1`, valid when `ev_n = 2` (30_encoding.md R80). -/
def State.ev1 (s : State) : Option Event := s.out[1]?

/-- The kind codes of 30_encoding.md R81; 0, 6 and 7 are never emitted. -/
def EventKind.code : EventKind → BitVec 3
  | .flag => 1
  | .abort => 2
  | .idle => 3
  | .byte => 4
  | .frameResult => 5

/-! ### The edge ring -/

/-- `RingPush(p)` (20_memory.md R52). -/
def ringPush (p : Position) (s : State) : State :=
  { s with
    ring := s.ring.set s.ringWp.toNat p s.ringWp.isLt
    ringWp := s.ringWp + 1
    ringFill := BitVec.ofNat 5 (min (s.ringFill.toNat + 1) Config.ringDepth) }

/-- The ring entry at an index. -/
def ringAt (s : State) (i : BitVec 4) : Position := s.ring[i.toNat]'i.isLt

/-- `Hist(j)` (20_memory.md R53): the position of the bit accepted `j` steps before the current one, clamped to
the oldest recorded one. The spec reads it only with `ring_fill >= 1` (log entry 14). -/
def hist (j : Nat) (s : State) : Position :=
  ringAt s (s.ringWp - 1 - BitVec.ofNat 4 (min j (s.ringFill.toNat - 1)))

/-! ### The shift register -/

/-- `Shift(b)` (41_classifier.md R120). -/
def shiftIn (b : Bool) (s : State) : State := { s with sr := shiftWindow s.sr b }

/-- The current bit, `sr[0]` (10_state.md R21, 30_encoding.md R73). -/
def State.currentBit (s : State) : Bool := s.sr.getLsbD 0

/-! ### The frame buffer and its fault -/

/-- `FbufClear()` (20_memory.md R59). -/
def fbufClear (s : State) : State := { s with fbuf := [] }

/-- `FbufAppend(b)` (20_memory.md R57): the fault, or the state with the byte appended. -/
def fbufAppend (b : Byte) (s : State) : Except Fault State :=
  if s.frameCap = some s.fbuf.length then .error .frameOverflow
  else .ok { s with fbuf := s.fbuf ++ [b] }

/-- Taking a fault (60_exceptions.md R232, R235): the mark is set and the step's events are not delivered. What
the step wrote before stays (log entry 9). -/
def raiseFault (f : Fault) (s : State) : State := { s with fault := some f, out := [] }

/-- `Reset()` (70_reset_and_hazards.md R260): every field of the record to its reset value, the fault mark
cleared, no events. The ring's entries become free values, since the spec leaves them unspecified (log entry 7). -/
def resetCore (s : State) : State :=
  { State.reset with
    ring := Vector.ofFn fun i : Fin 16 => Config.freePosition (s.freeDraws + i.val)
    input := s.input
    frameCap := s.frameCap
    freeDraws := s.freeDraws + Config.ringDepth }

/-! ### Event records (30_encoding.md R81) -/

/-- `FLAG(Hist(7), Hist(0))` (43_framer.md R161). -/
def flagEvent (s : State) : Event := ⟨.flag, hist 7 s, hist 0 s, 0, 0, false, false⟩

/-- `ABORT(Hist(7), Hist(0))` (43_framer.md R166). -/
def abortEvent (s : State) : Event := ⟨.abort, hist 7 s, hist 0 s, 0, 0, false, false⟩

/-- `IDLE(Hist(IDLE_T - 1), Hist(0))` (42_idle.md R141). -/
def idleEvent (s : State) : Event := ⟨.idle, hist (Config.idleT - 1) s, hist 0 s, 0, 0, false, false⟩

/-- `BYTE(byte_start, Hist(0), value)` (43_framer.md R172). -/
def byteEvent (v : Byte) (s : State) : Event := ⟨.byte, s.byteStart, hist 0 s, v, 0, false, false⟩

/-- The FRAME_RESULT of a close (43_framer.md R180 to R183). -/
def frameResultEvent (s : State) : Event :=
  ⟨.frameResult, s.frameStart, hist 0 s, 0, s.fbuf.length, crcValid s.fbuf, tooShort s.fbuf⟩

end Sys2Proof.Machine
end

