-- ==== Sys2Proof/Machine/Idle.lean ====
section
/-!
DEFINITION. The BIT1 rows: the Idle Detector (42_idle.md R140, R141).
-/

namespace Sys2Proof.Machine

/-- `IdleUpdate(1)` (42_idle.md R140): count up to the cap; IDLE on the transition to it. -/
def idleOne (s : State) : State :=
  if s.idleCnt.toNat < Config.idleT then
    (if s.idleCnt.toNat + 1 = Config.idleT then
      emit (idleEvent s) { s with idleCnt := s.idleCnt + 1 }
    else { s with idleCnt := s.idleCnt + 1 })
  else s

/-- `IdleUpdate(0)` (42_idle.md R140): a zero-bit clears the counter. -/
def idleZero (s : State) : State := { s with idleCnt := 0 }

/-- `IdleUpdate(b)` (42_idle.md R140): the accepted bit alone decides, not its class (70_reset_and_hazards.md R270). -/
def idleUpdate (b : Bool) (s : State) : State := if b then idleOne s else idleZero s

/-- `IDLE_ONE`. -/
def execIdleOne (s : State) : Host.Outcome State Fault Refusal := .next (idleOne s)

/-- `IDLE_ZERO`. -/
def execIdleZero (s : State) : Host.Outcome State Fault Refusal := .next (idleZero s)

end Sys2Proof.Machine
end

