-- ==== Sys2Proof/Machine/Action.lean ====
section
/-!
DEFINITION. The ACT3 rows: the actions of the Frame Assembler and framing state machine (43_framer.md). Each acts
on the state after the ring push and the shift of the current bit (44_step.md R202; log entry 10).
-/

namespace Sys2Proof.Machine

/-- `Open()` (43_framer.md R162). -/
def openFrame (s : State) : State :=
  { fbufClear s with acc := 0, cnt := 0, fstate := .frameActive, frameStart := hist 0 s }

/-- `Close()` (43_framer.md R180): one FRAME_RESULT, and no state written. -/
def closeFrame (s : State) : State := emit (frameResultEvent s) s

/-- The FLAG event of R161. -/
def emitFlag (s : State) : State := emit (flagEvent s) s

/-- FLAG_OPEN (43_framer.md R163): emit FLAG, open. -/
def flagOpen (s : State) : State := openFrame (emitFlag s)

/-- FLAG_CLOSE_OPEN (43_framer.md R164): emit FLAG, close, open. -/
def flagCloseOpen (s : State) : State := openFrame (closeFrame (emitFlag s))

/-- FLAG_RESYNC (43_framer.md R165): emit FLAG, open; no result for the frame that is dropped. -/
def flagResync (s : State) : State := openFrame (emitFlag s)

/-- ABORT (43_framer.md R166): emit ABORT, to SEARCHING, discard the frame. -/
def abortDiscard (s : State) : State :=
  { fbufClear (emit (abortEvent s) s) with fstate := .searching, acc := 0, cnt := 0 }

/-- The first part of DATA_FOLD (43_framer.md R172): `byte_start` at the byte's first bit, and the bit folded
into `acc`. -/
def foldIn (b : Bool) (s : State) : State :=
  { s with
    byteStart := if s.cnt = 0 then hist 0 s else s.byteStart
    acc := foldBit s.acc s.cnt b }

/-- The second part of DATA_FOLD (43_framer.md R172), at the 8th bit: append the byte or fault, emit BYTE, start
the next byte. -/
def completeByte (s : State) : State :=
  match fbufAppend s.acc s with
  | .error f => raiseFault f s
  | .ok t => { emit (byteEvent s.acc t) t with acc := 0, cnt := 0 }

/-- DATA_FOLD of bit `b` (43_framer.md R172). -/
def dataFold (b : Bool) (s : State) : State :=
  if s.cnt.toNat + 1 = 8 then completeByte (foldIn b s)
  else { foldIn b s with cnt := s.cnt + 1 }

/-- `FLAG_OPEN`. -/
def execFlagOpen (s : State) : Host.Outcome State Fault Refusal := .next (flagOpen s)

/-- `FLAG_CLOSE_OPEN`. -/
def execFlagCloseOpen (s : State) : Host.Outcome State Fault Refusal := .next (flagCloseOpen s)

/-- `FLAG_RESYNC`. -/
def execFlagResync (s : State) : Host.Outcome State Fault Refusal := .next (flagResync s)

/-- `ABORT_DISCARD`: the framing state in the word is ignored (43_framer.md R166, "fstate either"). -/
def execAbortDiscard (_fs : FState) (s : State) : Host.Outcome State Fault Refusal := .next (abortDiscard s)

/-- `STUFFED_IGNORE` (43_framer.md R167): the framer does nothing. -/
def execStuffedIgnore (s : State) : Host.Outcome State Fault Refusal := .next s

/-- `STUFFED_DISCARD` (43_framer.md R168): the bit is discarded. -/
def execStuffedDiscard (s : State) : Host.Outcome State Fault Refusal := .next s

/-- `DATA_IGNORE` (43_framer.md R170): the bit is ignored. -/
def execDataIgnore (s : State) : Host.Outcome State Fault Refusal := .next s

/-- `DATA_FOLD` (43_framer.md R172): the bit folded is the current bit, `sr[0]` (log entry 11). -/
def execDataFold (s : State) : Host.Outcome State Fault Refusal := .next (dataFold s.currentBit s)

end Sys2Proof.Machine
end

