-- ==== Sys2Proof/Machine/Window.lean ====
section
/-!
DEFINITION. The WIN8 rows: the framer's step for each class of the current bit (43_framer.md R174). A row's
meaning is the framer action that its rule of 41_classifier.md names (log entry 10).
-/

namespace Sys2Proof.Machine

/-- `FramerStep(c)` (43_framer.md R174). -/
def framerStep (c : BitClass) (s : State) : State :=
  match c with
  | .flag =>
    if s.fstate = .frameActive then
      (if Config.closeMin ≤ s.fbuf.length then flagCloseOpen s else flagResync s)
    else flagOpen s
  | .abort => abortDiscard s
  | .stuffed => s
  | .data b => if s.fstate = .frameActive then dataFold b s else s

/-- `FLAG` (41_classifier.md R122; 43_framer.md R161, R163 to R165). -/
def execFlag (s : State) : Host.Outcome State Fault Refusal := .next (framerStep .flag s)

/-- `ABORT` (41_classifier.md R123; 43_framer.md R166). -/
def execAbort (s : State) : Host.Outcome State Fault Refusal := .next (framerStep .abort s)

/-- `STUFFED` (41_classifier.md R124; 43_framer.md R167, R168): whatever the window's high bits. -/
def execStuffed (_hi : BitVec 2) (s : State) : Host.Outcome State Fault Refusal :=
  .next (framerStep .stuffed s)

/-- `DATA` (41_classifier.md R125; 43_framer.md R170, R172): the bit carried is the window's bit 0. -/
def execData (w : BitVec 8) (s : State) : Host.Outcome State Fault Refusal :=
  .next (framerStep (.data (w.getLsbD 0)) s)

end Sys2Proof.Machine
end

