-- ==== Sys2Proof/Machine/Control.lean ====
section
/-!
DEFINITION. The CTRL2 rows: what one clock cycle of the core does (30_encoding.md R71): RESET
(70_reset_and_hazards.md R260), STEP (44_step.md R203) and HOLD (R208).
-/

namespace Sys2Proof.Machine

/-- Sub-steps 1 and 2 of a step (44_step.md R202): the ring push, then the shift. -/
def acceptBit (p : PortIn) (s : State) : State := shiftIn (selectBit p) (ringPush p.pos s)

/-- Sub-step 5 (44_step.md R202, R203): the idle update, which a fault in the framer's sub-step forestalls. -/
def finishStep (b : Bool) (s : State) : State :=
  match s.fault with
  | none => idleUpdate b s
  | some _ => s

/-- `Step(state, sample)` (44_step.md R203) on the sample of this cycle. A faulted state has no step
(60_exceptions.md R232). -/
def stepCore (s : State) : State :=
  match s.fault with
  | none =>
    let t := acceptBit s.port (clearEvents s)
    finishStep (selectBit s.port) (framerStep (classify t.sr) t)
  | some _ => clearEvents s

/-- `RESET`: the sample presented in the cycle is ignored, so `in_valid` does not matter (30_encoding.md R71). -/
def execReset (_inValid : Bool) (s : State) : Host.Outcome State Fault Refusal := .next (resetCore s)

/-- `STEP`. -/
def execStep (s : State) : Host.Outcome State Fault Refusal := .next (stepCore s)

/-- `HOLD`: no state is written and no event is emitted (44_step.md R208). -/
def execHold (s : State) : Host.Outcome State Fault Refusal := .next (clearEvents s)

end Sys2Proof.Machine
end

