-- ==== Sys2Proof/Machine/Dispatch.lean ====
section
/-!
DEFINITION. One arm per row of spec/opcode_table.json.
-/

namespace Sys2Proof.Machine

def exec (i : Instr) (s : State) : Host.Outcome State Fault Refusal :=
  match i with
  | .flag => Sys2Proof.Machine.execFlag s
  | .abort => Sys2Proof.Machine.execAbort s
  | .stuffed hi => Sys2Proof.Machine.execStuffed hi s
  | .data w => Sys2Proof.Machine.execData w s
  | .reset inValid => Sys2Proof.Machine.execReset inValid s
  | .step => Sys2Proof.Machine.execStep s
  | .hold => Sys2Proof.Machine.execHold s
  | .flagOpen => Sys2Proof.Machine.execFlagOpen s
  | .flagCloseOpen => Sys2Proof.Machine.execFlagCloseOpen s
  | .flagResync => Sys2Proof.Machine.execFlagResync s
  | .abortDiscard fs => Sys2Proof.Machine.execAbortDiscard fs s
  | .stuffedIgnore => Sys2Proof.Machine.execStuffedIgnore s
  | .stuffedDiscard => Sys2Proof.Machine.execStuffedDiscard s
  | .dataIgnore => Sys2Proof.Machine.execDataIgnore s
  | .dataFold => Sys2Proof.Machine.execDataFold s
  | .idleOne => Sys2Proof.Machine.execIdleOne s
  | .idleZero => Sys2Proof.Machine.execIdleZero s

end Sys2Proof.Machine
end

