-- ==== Sys2Proof/Machine/Fetch.lean ====
section
/-!
DEFINITION. How a row comes to run: the control word of the cycle's input bundle is decoded (30_encoding.md R71),
the bundle is consumed, and, for the host's probe, a bare table word is placed where the next cycle decodes it
(log entry 12).
-/

namespace Sys2Proof.Machine

/-- The control row this clock cycle runs (30_encoding.md R71). -/
def fetch (s : State) : Instr := decodeCtrl2 (s.port.ctrl.setWidth 2)

/-- The clock cycle is over: its bundle is consumed. -/
def consumeInput (s : State) : State := { s with input := s.input.tail }

/-- A bundle that presents a sample on the primary line. -/
def sampleOf (b : Bool) : PortIn := { PortIn.quiet with inValid := true, dPri := b }

/-- The window bits that, with the right current bit, make a class; and that bit (30_encoding.md R74, R77). -/
def primeClass (code : Nat) : BitVec 8 × Bool :=
  match code with
  | 0 => (0x3F, false)
  | 1 => (0x3F, true)
  | 2 => (0x1F, false)
  | _ => (0x00, false)

/-- A bare table word placed so that the very next cycle decodes it: a control word on the input port; a window,
an action word or an accepted bit by the sample, and the shift register and framing state it needs, of a STEP
whose sub-step decodes it (log entry 12). -/
def placeTableWord (s : State) (nbits w : Nat) : State :=
  match tableFormat nbits w with
  | .ctrl2 =>
    { s with input := { PortIn.quiet with rst := w.testBit 1, inValid := w.testBit 0 } :: s.input }
  | .win8 => { s with sr := BitVec.ofNat 8 (w / 2), input := sampleOf (w.testBit 0) :: s.input }
  | .act3 =>
    { s with
      sr := (primeClass (w / 2)).1
      fstate := FState.ofBit (w.testBit 0)
      input := sampleOf (primeClass (w / 2)).2 :: s.input }
  | .bit1 => { s with input := sampleOf (w.testBit 0) :: s.input }

end Sys2Proof.Machine
end

