-- ==== Sys2Proof/Machine/Step.lean ====
section
/-!
DEFINITION. One clock cycle of the core, and the host's way to place a table word for the next one.
-/

namespace Sys2Proof.Machine

/-- One clock cycle (30_encoding.md R70, R71): the row that the cycle's control word selects runs on the cycle's
bundle, and the bundle is consumed. -/
def step (s : State) : Host.Outcome State Fault Refusal :=
  match exec (fetch s) s with
  | .next t => .next (consumeInput t)
  | .fault f => .fault f
  | .refused r => .refused r

/-- `s` with a bare table word placed for the very next step (log entry 12). -/
def State.withFetchWord (s : State) (nbits w : Nat) : State := placeTableWord s nbits w

end Sys2Proof.Machine
end

