-- ==== Sys2Proof/Machine/Sender.lean ====
section
/-!
DEFINITION. The spec's input language (30_encoding.md R90): tokens and their expansion into a bit stream, with the
bit stuffing of the sender. It is no part of the core; claims about what the core decodes are stated with it.
-/

namespace Sys2Proof.Machine

/-- A token of 30_encoding.md R90. -/
inductive Token where
  /-- `F`: a flag, never stuffed. -/
  | flag
  /-- `B(hh)`: a stuffed byte. -/
  | byte (x : Byte)
  /-- `FCS`: the CRC of the bytes since the last flag, low byte first, stuffed. -/
  | fcs
  /-- `R(s)`: literal bits. -/
  | raw (bits : List Bool)
  /-- `ONES(n)`. -/
  | ones (n : Nat)
  /-- `ZEROS(n)`. -/
  | zeros (n : Nat)
  deriving DecidableEq, Repr

/-- The bits of a flag in arrival order. -/
def flagBits : List Bool := [false, true, true, true, true, true, true, false]

/-- The bits of a byte, bit 0 first (20_memory.md R60). -/
def byteBits (x : Byte) : List Bool := (List.range 8).map fun i => x.getLsbD i

/-- Sender stuffing: after the fifth one-bit in a row a zero follows at once. The first component is the stuffed
stream, the second the run counter after it. -/
def stuff : Nat → List Bool → List Bool × Nat
  | run, [] => ([], run)
  | run, true :: bs =>
    if run + 1 = 5 then (true :: false :: (stuff 0 bs).1, (stuff 0 bs).2)
    else (true :: (stuff (run + 1) bs).1, (stuff (run + 1) bs).2)
  | _, false :: bs => (false :: (stuff 0 bs).1, (stuff 0 bs).2)

/-- The expansion of a token sequence, from a run counter and the bytes sent since the last flag. -/
def expandFrom (run : Nat) (sent : List Byte) : List Token → List Bool
  | [] => []
  | .flag :: ts => flagBits ++ expandFrom 0 [] ts
  | .byte x :: ts => (stuff run (byteBits x)).1 ++ expandFrom (stuff run (byteBits x)).2 (sent ++ [x]) ts
  | .fcs :: ts =>
    let lo := (crc16X25 sent).extractLsb' 0 8
    let hi := (crc16X25 sent).extractLsb' 8 8
    let r := stuff run (byteBits lo ++ byteBits hi)
    r.1 ++ expandFrom r.2 sent ts
  | .raw bits :: ts => bits ++ expandFrom 0 sent ts
  | .ones n :: ts => List.replicate n true ++ expandFrom 0 sent ts
  | .zeros n :: ts => List.replicate n false ++ expandFrom 0 sent ts

/-- The expansion of a program (30_encoding.md R90): the run counter starts at 0. -/
def expand (ts : List Token) : List Bool := expandFrom 0 [] ts

end Sys2Proof.Machine
end

