-- ==== Sys2Proof/Safety.lean ====
section
/-!
DEFINITION. The terms claims are stated in: a decode pass and its observation (44_step.md R209, R210), a run of
rows, the invariants between steps (10_state.md R33), and what is left of a state when positions are forgotten
(44_step.md R206).
-/

namespace Sys2Proof.Machine

/-- A state is safe while the fault mark is not set: a claim about the core is a claim about its events "with
'no fault' as its premise" (44_step.md R210). -/
abbrev State.safe (s : State) : Prop := s.fault = none

/-- `n` clock cycles: the state they end in and the concatenation of their event lists (44_step.md R210). -/
def cycles : Nat → State → State × List Event
  | 0, s => (s, [])
  | n + 1, s =>
    match step s with
    | .next t => ((cycles n t).1, t.out ++ (cycles n t).2)
    | .fault _ => (s, [])
    | .refused _ => (s, [])

/-- The run of the core from `s` on the bundles `ps`, one clock cycle each. -/
def pass (ps : List PortIn) (s : State) : State × List Event := cycles ps.length { s with input := ps }

/-- The bundle is a STEP: a sample is presented and no reset (30_encoding.md R71). -/
def PortIn.isSample (p : PortIn) : Bool := !p.rst && p.inValid

/-- Rows run one after another; none where one of them does not answer a next state. -/
def execAll : List Instr → State → Option State
  | [], s => some s
  | i :: is, s =>
    match exec i s with
    | .next t => execAll is t
    | .fault _ => none
    | .refused _ => none

/-- The number of one-bits at the front of a list. -/
def leadingOnes : List Bool → Nat
  | true :: bs => leadingOnes bs + 1
  | false :: _ => 0
  | [] => 0

/-- The number of consecutive one-bits in the shift register up to the newest bit (41_classifier.md R126). -/
def trailingOnes (w : BitVec 8) : Nat := leadingOnes (byteBits w)

/-- The form of the core's two stores (20_memory.md R50): `ring_fill` is at most 16 and, until the ring is full, is
the write pointer (10_state.md R33 item 5); `fbuf` has length 0..`FRAME_CAP` (R20). -/
abbrev StorageWf (s : State) : Prop :=
  s.ringFill.toNat ≤ Config.ringDepth ∧
  (s.ringFill.toNat < Config.ringDepth → s.ringWp.toNat = s.ringFill.toNat) ∧
  (s.frameCap.all fun c => decide (s.fbuf.length ≤ c)) = true

/-- The invariants of 10_state.md R33 in the form that one state can show. -/
structure FramingInv (s : State) : Prop where
  /-- R33 item 1. -/
  accBelow : s.acc.toNat < 2 ^ s.cnt.toNat
  /-- R33 item 2. -/
  searchingEmpty : s.fstate = .searching → s.fbuf = [] ∧ s.acc = 0 ∧ s.cnt = 0
  /-- R33 item 3: the counter is the run of ones that the shift register shows the end of. -/
  idleIsRun : min s.idleCnt.toNat 8 = trailingOnes s.sr
  /-- R33 item 4. -/
  activeNotIdle : s.fstate = .frameActive → s.idleCnt.toNat ≤ 6
  /-- R33 item 5, and the buffer's length within its capacity. -/
  storage : StorageWf s

/-- What every clock cycle keeps. The capacity is the build's and is legal in a faulted state too; the invariants of
R33 hold between steps of a pass, that is while no fault is marked (log entries 8, 9). -/
structure Inv (s : State) : Prop where
  /-- The build's capacity is one the spec allows (92_eei_decisions.md, Open parameters). -/
  capLegal : Config.frameCapOk s.frameCap = true
  /-- The invariants of R33, while no fault is marked. -/
  framing : s.safe → FramingInv s

/-- What a reader who ignores positions sees of an event (44_step.md R206). -/
def Event.content (e : Event) : Event := { e with start := 0, stop := 0 }

/-- A state with every sample position in it forgotten (44_step.md R206). -/
def State.erasePositions (s : State) : State :=
  { s with
    ring := Vector.replicate 16 0
    frameStart := 0
    byteStart := 0
    input := s.input.map fun p => { p with pos := 0 }
    out := s.out.map Event.content }

/-- The state right after a FLAG has opened a frame (43_framer.md R162): nothing assembled yet, and the flag's bits
in the shift register. -/
structure JustOpened (s : State) : Prop where
  isSafe : s.safe
  active : s.fstate = .frameActive
  empty : s.fbuf = []
  noAcc : s.acc = 0
  noCnt : s.cnt = 0
  flagSeen : s.sr = 0x7E
  noRun : s.idleCnt = 0

/-- The verdict a closing FLAG gives on the bytes of a frame, positions aside: nothing under 2 bytes, a too-short
result under 6, else the CRC verdict (43_framer.md R164, R165, R181, R182). -/
def verdictContent (bytes : List Byte) : List Event :=
  if bytes.length < 2 then []
  else if bytes.length < 6 then [⟨.frameResult, 0, 0, 0, bytes.length, false, true⟩]
  else [⟨.frameResult, 0, 0, 0, bytes.length,
    decide (crc16X25 (bytes.take (bytes.length - 2)) = receivedCheck bytes), false⟩]

end Sys2Proof.Machine
end

