-- ==== Sys2Proof/Certificates/Slice0/Obligations.lean ====
section
/-!
DEFINITION. The statements for the provers, in the order of OBLIGATIONS.json.
-/

open Sys2Proof Sys2Proof.Machine

/-! ### Decoding and encoding -/

/-- A few words of the spec's tables and the rows they stand for (30_encoding.md R71, R74, R78; 42_idle.md R140). -/
def Obligations.TableWordsDecode : Prop :=
  decode .win8 0 0b01111110#8 = .ok .flag ∧
  decode .win8 0 0b01111111#8 = .ok .abort ∧
  decode .win8 0 0b10111110#8 = .ok (.stuffed 0b10#2) ∧
  decode .win8 0 0b00011110#8 = .ok (.data 0b00011110#8) ∧
  decode .ctrl2 0 0b11#8 = .ok (.reset true) ∧
  decode .ctrl2 0 0b01#8 = .ok .step ∧
  decode .ctrl2 0 0b00#8 = .ok .hold ∧
  decode .act3 2 0b001#8 = .ok .flagCloseOpen ∧
  decode .act3 1 0b001#8 = .ok .flagResync ∧
  decode .act3 0 0b111#8 = .ok .dataFold ∧
  decode .bit1 0 0b1#8 = .ok .idleOne ∧
  decode .ctrl2 0 0b100#8 = .error (.tooWide .ctrl2)

/-- Every well-formed row decodes back from its word, every operand at every value, at every buffer length under
which the row is the one selected (30_encoding.md R71, R74, R78). -/
def Obligations.DecodeInvertsEncode : Prop :=
  ∀ (i : Instr) (n : Nat), i.wellFormed = true → i.admits n = true →
    decode i.format n (encode i) = .ok i

/-- What a decoder answers is a well-formed row of that format, selected at that buffer length, whose word is the
one decoded: each word has one meaning (30_encoding.md R74 to R78). -/
def Obligations.DecodedRowHasThatWord : Prop :=
  ∀ (f : Format) (n : Nat) (w : BitVec 8) (i : Instr), decode f n w = .ok i →
    i.format = f ∧ i.wellFormed = true ∧ i.admits n = true ∧ encode i = w

/-- There are no reserved or illegal encodings: every word of a format's width names a row (30_encoding.md R76), and
that row has an effect in every state. In a faulted state, and on an overflow, the next state is the model's choice
(log entry 8; 60_exceptions.md R232 gives a faulted state no STEP), and so is the effect of a row run outside its
selecting condition (log entry 10). -/
def Obligations.NoReservedEncoding : Prop :=
  ∀ (f : Format) (n : Nat) (w : BitVec 8), w.toNat < 2 ^ f.width →
    ∃ i, decode f n w = .ok i ∧ ∀ s : State, ∃ t, exec i s = .next t

/-- The control decode of the input port: `rst` takes priority over `in_valid` (30_encoding.md R71). -/
def Obligations.ControlWordSelectsRow : Prop :=
  ∀ (p : PortIn) (n : Nat),
    decode .ctrl2 n p.ctrl =
      .ok (if p.rst = true then .reset p.inValid else if p.inValid = true then .step else .hold)

/-! ### The clock cycle and the step -/

/-- A clock cycle runs the row that the cycle's control word decodes to, and consumes the bundle. Holding the
coming cycles' bundles in the state is the model's choice (log entry 1). -/
def Obligations.StepRunsDecodedRow : Prop :=
  ∀ (s t : State) (i : Instr), decode .ctrl2 s.fbuf.length s.port.ctrl = .ok i → exec i s = .next t →
    i.wellFormed = true ∧ step s = .next { t with input := s.input.tail }

/-- The whole step (44_step.md R202, R203): with no fault, the ring push and the shift, then the row the window
decodes to, then, unless that row faults, the row the accepted bit decodes to; in a faulted state nothing. That a
faulting step and a faulted state answer a next state is the model's choice (log entry 8), and that the faulting
step's ring push, shift, `acc` and `byte_start` stay in the faulted state is the model's reading (log entry 9). -/
def Obligations.StepIsItsSubSteps : Prop :=
  ∀ s : State,
    (s.fault = none →
      ∃ (iw ib : Instr) (u v : State),
        decode .win8 s.fbuf.length ((s.sr <<< 1) ||| bitByte (selectBit s.port)) = .ok iw ∧
        exec iw (shiftIn (selectBit s.port) (ringPush s.port.pos { s with out := [] })) = .next u ∧
        decode .bit1 u.fbuf.length (bitByte (selectBit s.port)) = .ok ib ∧
        exec ib u = .next v ∧
        exec .step s = .next (if u.fault = none then v else u)) ∧
    (s.fault ≠ none → exec .step s = .next { s with out := [] })

/-- The row the window decodes to does what the row does that the class and the framing state decode to
(30_encoding.md R78, 43_framer.md R174). -/
def Obligations.WindowRowRunsItsAction : Prop :=
  ∀ (s : State) (iw : Instr), decode .win8 s.fbuf.length s.sr = .ok iw →
    ∃ ia, decode .act3 s.fbuf.length (actWord (classify s.sr) s.fstate) = .ok ia ∧ exec iw s = exec ia s

/-- A STEP from a state with no fault completes, and with room in the buffer it does not fault. Where it does not
fault it selects the accepted bit (44_step.md R201), pushes the position (20_memory.md R52) and shifts the bit in
(41_classifier.md R120), whatever its class and the framing state. What an overflowing step leaves of these is log
entry 9 and not claimed here. -/
def Obligations.StepAcceptsBit : Prop :=
  ∀ s : State, s.fault = none →
    ∃ t, exec .step s = .next t ∧
      (s.frameCap ≠ some s.fbuf.length → t.fault = none) ∧
      (t.fault = none →
        t.sr = (s.sr <<< 1) |||
          (if (if s.port.enSecPresent ∧ s.port.enSec ∧ s.port.dSecPresent then s.port.dSec else s.port.dPri)
            then 1#8 else 0#8) ∧
        t.ring = s.ring.set s.ringWp.toNat s.port.pos s.ringWp.isLt ∧
        t.ringWp.toNat = (s.ringWp.toNat + 1) % 16 ∧
        t.ringFill.toNat = min (s.ringFill.toNat + 1) 16) ∧
      t.input = s.input ∧ t.frameCap = s.frameCap ∧ t.freeDraws = s.freeDraws

/-- The levels of absent lines are ignored (30_encoding.md R72): a clock cycle answers the same whatever they are. -/
def Obligations.AbsentLinesIgnored : Prop :=
  ∀ (s : State) (p : PortIn) (ps : List PortIn) (x y : Bool),
    step { s with input :=
      { p with dSec := if p.dSecPresent then p.dSec else x
               enSec := if p.enSecPresent then p.enSec else y } :: ps } =
    step { s with input := p :: ps }

/-- RESET (70_reset_and_hazards.md R260): every field of the record but the ring's entries, which the spec leaves
unspecified, at its reset value; the sample ignored; no events. -/
def Obligations.ResetResult : Prop :=
  ∀ (s : State) (v : Bool),
    ∃ t, exec (.reset v) s = .next t ∧
      t.sr = 0 ∧ t.ringWp = 0 ∧ t.ringFill = 0 ∧ t.fstate = .searching ∧ t.acc = 0 ∧ t.cnt = 0 ∧
      t.fbuf = [] ∧ t.frameStart = 0 ∧ t.byteStart = 0 ∧ t.idleCnt = 0 ∧ t.fault = none ∧ t.out = [] ∧
      t.input = s.input ∧ t.frameCap = s.frameCap

/-- HOLD (44_step.md R208): no state is written and no event emitted, in a faulted state too. -/
def Obligations.HoldResult : Prop :=
  ∀ s : State, exec .hold s = .next { s with out := [] }

/-- When the samples are exhausted every cycle is a wait: nothing is written, nothing further emitted (44_step.md
R209). That a missing bundle reads as HOLD is the model's choice (log entry 1). -/
def Obligations.ExhaustedInputHolds : Prop :=
  ∀ s : State, s.input = [] → step s = .next { s with out := [] }

/-! ### Faults -/

/-- No cycle of a core with an unbounded buffer traps, stops or faults (60_exceptions.md R230, R231). -/
def Obligations.UnboundedBufferNeverFaults : Prop :=
  ∀ s : State, s.fault = none → s.frameCap = none → ∃ t, step s = .next t ∧ t.fault = none

/-- Exactly when a cycle raises FrameOverflow, and that it then delivers no events (60_exceptions.md R231, R232):
a STEP whose bit is DATA completes a byte in FRAME_ACTIVE while the finite buffer is full. -/
def Obligations.OverflowExactlyWhenFull : Prop :=
  ∀ s : State, s.fault = none →
    ∃ t, step s = .next t ∧
      (t.fault ≠ none ↔
        s.port.rst = false ∧ s.port.inValid = true ∧ s.fstate = .frameActive ∧ s.cnt = 7 ∧
        s.frameCap = some s.fbuf.length ∧
        ∃ b, classify ((s.sr <<< 1) ||| bitByte (selectBit s.port)) = .data b) ∧
      (t.fault ≠ none → t.fault = some .frameOverflow ∧ t.out = [])

/-- The fault is sticky: only RESET clears the mark, and no other cycle changes a faulted state or emits an event
(60_exceptions.md R232). -/
def Obligations.OnlyResetLeavesFault : Prop :=
  ∀ (s : State) (f : Fault), s.fault = some f →
    ∃ t, step s = .next t ∧
      (s.port.rst = true → t.fault = none ∧ t.out = []) ∧
      (s.port.rst = false → t = { s with out := [], input := s.input.tail })

/-! ### The framer's rows -/

/-- FLAG_OPEN and FLAG_RESYNC (43_framer.md R161 to R163, R165): the FLAG event, and a fresh frame; no
FRAME_RESULT; every other field unchanged. -/
def Obligations.FlagOpenAndResyncResult : Prop :=
  ∀ (s : State) (i : Instr), i = .flagOpen ∨ i = .flagResync →
    exec i s = .next { s with
      fbuf := [], acc := 0, cnt := 0, fstate := .frameActive, frameStart := hist 0 s
      out := s.out ++ [⟨.flag, hist 7 s, hist 0 s, 0, 0, false, false⟩] }

/-- FLAG_CLOSE_OPEN with 2 to 5 bytes (43_framer.md R164, R181, R183): FLAG, then a too-short FRAME_RESULT from
the old frame start; then a fresh frame; every other field unchanged. -/
def Obligations.CloseTooShortResult : Prop :=
  ∀ s : State, 2 ≤ s.fbuf.length → s.fbuf.length < 6 →
    exec .flagCloseOpen s = .next { s with
      fbuf := [], acc := 0, cnt := 0, fstate := .frameActive, frameStart := hist 0 s
      out := s.out ++ [⟨.flag, hist 7 s, hist 0 s, 0, 0, false, false⟩,
        ⟨.frameResult, s.frameStart, hist 0 s, 0, s.fbuf.length, false, true⟩] }

/-- FLAG_CLOSE_OPEN with 6 bytes or more (43_framer.md R164, R182, R183; 20_memory.md R62): the CRC over all bytes
but the last two against these two, low byte first. -/
def Obligations.CloseCheckedResult : Prop :=
  ∀ (s : State) (body : List Byte) (lo hi : Byte), s.fbuf = body ++ [lo, hi] → 6 ≤ s.fbuf.length →
    exec .flagCloseOpen s = .next { s with
      fbuf := [], acc := 0, cnt := 0, fstate := .frameActive, frameStart := hist 0 s
      out := s.out ++ [⟨.flag, hist 7 s, hist 0 s, 0, 0, false, false⟩,
        ⟨.frameResult, s.frameStart, hist 0 s, 0, s.fbuf.length, decide (crc16X25 body = hi ++ lo), false⟩] }

/-- ABORT and ABORT_DISCARD (43_framer.md R166), in either framing state: the ABORT event, SEARCHING, nothing of the
frame left, no FRAME_RESULT; every other field unchanged. -/
def Obligations.AbortResult : Prop :=
  ∀ (s : State) (i : Instr), i = .abort ∨ (∃ fs, i = .abortDiscard fs) →
    exec i s = .next { s with
      fbuf := [], acc := 0, cnt := 0, fstate := .searching
      out := s.out ++ [⟨.abort, hist 7 s, hist 0 s, 0, 0, false, false⟩] }

/-- The rows that change nothing: STUFFED in either framing state (43_framer.md R167, R168), and DATA in SEARCHING
(R170). -/
def Obligations.IgnoredBitsResult : Prop :=
  ∀ (s : State) (i : Instr),
    (i = .stuffedIgnore ∨ i = .stuffedDiscard ∨ i = .dataIgnore ∨ (∃ h, i = .stuffed h) ∨
      (s.fstate = .searching ∧ ∃ w, i = .data w)) →
    exec i s = .next s

/-- DATA_FOLD, and DATA in FRAME_ACTIVE (43_framer.md R172; 20_memory.md R57): the bit enters `acc` at position
`cnt` and the first one records its position; on the 8th bit the byte is appended, a BYTE event emitted and the next
byte started; or, with the finite buffer full, the fault is marked, nothing appended and no event of the step
delivered (what `acc` holds then is left open here: log entry 9). Every other field is unchanged. -/
def Obligations.DataFoldResult : Prop :=
  ∀ (s : State) (i : Instr) (b : Bool) (v : Byte),
    (i = .dataFold ∧ b = s.sr.getLsbD 0) ∨
      (s.fstate = .frameActive ∧ ∃ w : BitVec 8, i = .data w ∧ b = w.getLsbD 0) →
    v = s.acc ||| (if b then 1#8 <<< s.cnt.toNat else 0#8) →
    (s.cnt ≠ 7 →
      exec i s = .next { s with
        byteStart := if s.cnt = 0 then hist 0 s else s.byteStart
        acc := v, cnt := s.cnt + 1 }) ∧
    (s.cnt = 7 → s.frameCap ≠ some s.fbuf.length →
      exec i s = .next { s with
        acc := 0, cnt := 0, fbuf := s.fbuf ++ [v]
        out := s.out ++ [⟨.byte, s.byteStart, hist 0 s, v, 0, false, false⟩] }) ∧
    (s.cnt = 7 → s.frameCap = some s.fbuf.length →
      ∃ a, exec i s = .next { s with acc := a, fault := some .frameOverflow, out := [] })

/-- FLAG, in every framing state and at every buffer length (43_framer.md R161, R174): the FLAG event, then, in
FRAME_ACTIVE with 2 bytes or more, exactly one FRAME_RESULT on the old frame; then a fresh frame. -/
def Obligations.FlagResult : Prop :=
  ∀ s : State,
    ∃ results : List Event,
      exec .flag s = .next { s with
        fbuf := [], acc := 0, cnt := 0, fstate := .frameActive, frameStart := hist 0 s
        out := s.out ++ ⟨.flag, hist 7 s, hist 0 s, 0, 0, false, false⟩ :: results } ∧
      results.map Event.content =
        (if s.fstate = .frameActive then verdictContent s.fbuf else []) ∧
      ∀ e ∈ results, e.start = s.frameStart ∧ e.stop = hist 0 s

/-- Eight DATA bits folded from an empty accumulator make the byte `sum(d_i << i)`: the first bit received becomes
bit 0 (20_memory.md R60), in a BYTE event and at the end of the buffer (43_framer.md R172). The rows are run as
sub-steps, one after another with no ring push between them, which no STEP does: that exec gives them that meaning,
and that the BYTE's span therefore starts where it ends, is the model's choice (log entry 10). -/
def Obligations.EightBitsMakeTheByte : Prop :=
  ∀ (s : State) (ds : List Bool),
    s.fstate = .frameActive → s.cnt = 0 → s.acc = 0 → s.frameCap ≠ some s.fbuf.length → ds.length = 8 →
    ∃ (t : State) (v : Byte),
      execAll (ds.map fun d => .data (bitByte d)) s = some t ∧
      v.toNat = (ds.zipIdx.map fun di => di.1.toNat <<< di.2).sum ∧
      t.fbuf = s.fbuf ++ [v] ∧ t.cnt = 0 ∧ t.acc = 0 ∧
      t.out = s.out ++ [⟨.byte, hist 0 s, hist 0 s, v, 0, false, false⟩]

/-! ### The idle detector's rows -/

/-- IDLE_ONE and IDLE_ZERO (42_idle.md R140, R141): saturating count, one IDLE on the transition to 15, a zero-bit
clears; every other field unchanged. -/
def Obligations.IdleRowsResult : Prop :=
  ∀ s : State,
    exec .idleZero s = .next { s with idleCnt := 0 } ∧
    exec .idleOne s = .next { s with
      idleCnt := if s.idleCnt = 15 then 15 else s.idleCnt + 1
      out := if s.idleCnt = 14 then s.out ++ [⟨.idle, hist 14 s, hist 0 s, 0, 0, false, false⟩] else s.out }

/-- Over a pass of samples from a cleared counter, `idle_cnt` is the number of consecutive one-bits at the end of
the accepted bits, capped at 15 (10_state.md R33 item 3, 42_idle.md R142). -/
def Obligations.IdleCountIsRunOfOnes : Prop :=
  ∀ (s : State) (ps : List PortIn),
    s.idleCnt = 0 → (∀ p ∈ ps, p.isSample = true) → (pass ps s).1.fault = none →
    (pass ps s).1.idleCnt.toNat = min 15 (leadingOnes (ps.map selectBit).reverse)

/-! ### The ring -/

/-- A push makes every recorded position one step older, down to the depth the ring holds (20_memory.md R52, R53),
and the pushed one the current bit's. -/
def Obligations.PushAgesHistory : Prop :=
  ∀ (s : State) (p : Position),
    hist 0 (ringPush p s) = p ∧
    ∀ j, j < 15 → j < s.ringFill.toNat → s.ringFill.toNat ≤ 16 →
      hist (j + 1) (ringPush p s) = hist j s

/-- Over a pass of samples from an empty ring, `Hist(j)` is the position accepted j steps before the last one,
clamped to the oldest (20_memory.md R52, R53), and `ring_fill` and `ring_wp` count the steps: the spec marks these two
counts, in 10_state.md R22 and R33 item 5, as derived. -/
def Obligations.RingIsLastSixteen : Prop :=
  ∀ (s : State) (ps : List PortIn) (j : Nat),
    s.ringFill = 0 → s.ringWp = 0 → (∀ p ∈ ps, p.isSample = true) → ps ≠ [] → j ≤ 15 →
    (pass ps s).1.fault = none →
    (ps.map PortIn.pos).reverse[min j (min ps.length 16 - 1)]? = some (hist j (pass ps s).1) ∧
    (pass ps s).1.ringFill.toNat = min ps.length 16 ∧
    (pass ps s).1.ringWp.toNat = ps.length % 16

/-! ### The CRC engine -/

/-- The running form of the CRC, which holds the last two bytes back, gives the verdict of the close on every frame
of two bytes or more (40_crc.md R102). -/
def Obligations.RunningCrcSameVerdict : Prop :=
  ∀ frame : List Byte, 2 ≤ frame.length →
    (runningCrcVerdict (frame.foldl runningCrcPush runningCrcStart) = true ↔
      crc16X25 (frame.take (frame.length - 2)) = receivedCheck frame)

/-- The residue property, which the spec marks as general knowledge, not in its source: the fold over the whole
frame is 0xF0B8 exactly when the trailer matches (40_crc.md R103). -/
def Obligations.ResidueIffTrailerMatches : Prop :=
  ∀ frame : List Byte, 2 ≤ frame.length →
    (crcRaw 0xFFFF frame = 0xF0B8 ↔
      crc16X25 (frame.take (frame.length - 2)) = receivedCheck frame)

/-- The byte-wise engine is the bit-serial one: the fold over bytes, 8 rounds each, is the fold over the bits in
arrival order, one round each with the bit XORed into bit 0 (40_crc.md R100 to R102, 20_memory.md R60). -/
def Obligations.CrcIsBitSerial : Prop :=
  ∀ (a : Crc) (s : List Byte),
    crcRaw a s = (s.flatMap byteBits).foldl (fun c b => crcRound (c ^^^ (if b then 1#16 else 0#16))) a

/-! ### Whole-machine rules -/

/-- Which rows write which field of the record, over all rows and states (10_state.md R20): a field that changes was
changed by a row that the table's "written by" column leads to. The input port's bundles and `FRAME_CAP` are
written by none. -/
def Obligations.FieldsWrittenOnlyByTheirRows : Prop :=
  ∀ (i : Instr) (s t : State), exec i s = .next t →
    (t.sr ≠ s.sr ∨ t.ring ≠ s.ring ∨ t.ringWp ≠ s.ringWp ∨ t.ringFill ≠ s.ringFill →
      i = .step ∨ ∃ v, i = .reset v) ∧
    (t.fstate ≠ s.fstate →
      i = .flag ∨ i = .flagOpen ∨ i = .flagCloseOpen ∨ i = .flagResync ∨
      i = .abort ∨ (∃ fs, i = .abortDiscard fs) ∨ i = .step ∨ ∃ v, i = .reset v) ∧
    (t.acc ≠ s.acc ∨ t.cnt ≠ s.cnt ∨ t.fbuf ≠ s.fbuf →
      i = .flag ∨ i = .flagOpen ∨ i = .flagCloseOpen ∨ i = .flagResync ∨
      i = .abort ∨ (∃ fs, i = .abortDiscard fs) ∨ i = .dataFold ∨ (∃ w, i = .data w) ∨
      i = .step ∨ ∃ v, i = .reset v) ∧
    (t.frameStart ≠ s.frameStart →
      i = .flag ∨ i = .flagOpen ∨ i = .flagCloseOpen ∨ i = .flagResync ∨ i = .step ∨ ∃ v, i = .reset v) ∧
    (t.byteStart ≠ s.byteStart →
      i = .dataFold ∨ i = .step ∨ (∃ w, i = .data w) ∨ ∃ v, i = .reset v) ∧
    (t.idleCnt ≠ s.idleCnt → i = .idleOne ∨ i = .idleZero ∨ i = .step ∨ ∃ v, i = .reset v) ∧
    (t.fault ≠ s.fault → i = .dataFold ∨ i = .step ∨ (∃ w, i = .data w) ∨ ∃ v, i = .reset v) ∧
    (t.freeDraws ≠ s.freeDraws → ∃ v, i = .reset v) ∧
    t.fbuf.length ≤ s.fbuf.length + 1 ∧ t.input = s.input ∧ t.frameCap = s.frameCap

/-- The invariants of 10_state.md R33 hold at reset. -/
def Obligations.InvariantAtReset : Prop := Inv State.reset ∧ State.reset.safe

/-- Every clock cycle keeps the capacity a legal one and, while no fault is marked, the invariants of 10_state.md
R33, from every state that meets them, a faulted one included. That they are asked of states with no fault alone is
the model's reading (log entries 8, 9). -/
def Obligations.InvariantKeptByEveryCycle : Prop :=
  ∀ s t : State, Inv s → step s = .next t → Inv t

/-- While no fault is marked, the class of the next bit is decided by that bit and the idle counter alone, cut at
7 (41_classifier.md R126; the counter is the run of ones by R33 item 3). -/
def Obligations.ClassByRunOfOnes : Prop :=
  ∀ (s : State) (b : Bool), FramingInv s →
    classify ((s.sr <<< 1) ||| bitByte b) =
      (if b then (if s.idleCnt.toNat = 6 then .abort else .data true)
       else if s.idleCnt.toNat ≤ 4 then .data false
       else if s.idleCnt.toNat = 6 then .flag
       else .stuffed)

/-- At most two events a cycle, and two only as FLAG then FRAME_RESULT (30_encoding.md R83, R84). -/
def Obligations.EventsPerCycle : Prop :=
  ∀ s t : State, Inv s → step s = .next t →
    t.out = [] ∨ (∃ e, t.out = [e] ∧ e.kind ≠ .frameResult) ∨
      ∃ e f, t.out = [e, f] ∧ e.kind = .flag ∧ f.kind = .frameResult

/-- The fields of every record a cycle emits: those its kind does not use are 0 (30_encoding.md R81), and a
FRAME_RESULT has one of the three combinations of R82. -/
def Obligations.EventFieldCombinations : Prop :=
  ∀ (s t : State) (e : Event), step s = .next t → e ∈ t.out →
    (e.kind ≠ .byte → e.value = 0) ∧
    (e.kind ≠ .frameResult → e.count = 0 ∧ e.crcValid = false ∧ e.tooShort = false) ∧
    (e.kind = .frameResult →
      (2 ≤ e.count ∧ e.count ≤ 5 ∧ e.crcValid = false ∧ e.tooShort = true) ∨
      (6 ≤ e.count ∧ e.tooShort = false))

/-- Every span of a cycle's events ends at the current bit's position and starts at the depth of the ring, or the
recorded position, that its kind calls for (44_step.md R205). -/
def Obligations.SpansComeFromTheRing : Prop :=
  ∀ (s t : State) (e : Event), step s = .next t → e ∈ t.out →
    e.stop = s.port.pos ∧
    (e.kind = .flag ∨ e.kind = .abort → e.start = hist 7 t) ∧
    (e.kind = .idle → e.start = hist 14 t) ∧
    (e.kind = .byte → e.start = t.byteStart) ∧
    (e.kind = .frameResult → e.start = s.frameStart)

/-- An IDLE is emitted only while SEARCHING, in a cycle whose window is 0xFF (42_idle.md R143). -/
def Obligations.IdleOnlyWhileSearching : Prop :=
  ∀ (s t : State) (e : Event), Inv s → step s = .next t → e ∈ t.out → e.kind = .idle →
    s.fstate = .searching ∧ t.fstate = .searching ∧ t.sr = 0xFF

/-- Positions do not affect decoding (44_step.md R206): two states that differ in positions only answer states that
differ in positions only, events included. -/
def Obligations.PositionsDoNotAffectDecoding : Prop :=
  ∀ s t : State, s.erasePositions = t.erasePositions →
    ∃ s' t', step s = .next s' ∧ step t = .next t' ∧ s'.erasePositions = t'.erasePositions

/-- No state is carried from one pass to the next (70_reset_and_hazards.md R263): what a RESET and the bundles after
it make the core emit does not depend on the state before, the buffer's capacity apart. -/
def Obligations.ResetForgetsEverything : Prop :=
  ∀ (s t : State) (r : PortIn) (ps : List PortIn), r.rst = true → s.frameCap = t.frameCap →
    (pass (r :: ps) s).2 = (pass (r :: ps) t).2

/-- HOLD cycles anywhere in a pass change neither its events nor the state it ends in, the output port of the last
cycle apart (44_step.md R208, R209). -/
def Obligations.HoldCyclesAreInvisible : Prop :=
  ∀ (s : State) (ps : List PortIn),
    (pass ps s).2 = (pass (ps.filter fun p => p.rst || p.inValid) s).2 ∧
    { (pass ps s).1 with out := [] } = { (pass (ps.filter fun p => p.rst || p.inValid) s).1 with out := [] }

/-- The first seven bits after a RESET can make a FLAG or an ABORT, whose start is clamped to the first bit's
position (20_memory.md R55, 70_reset_and_hazards.md R264). -/
def Obligations.SevenBitsAfterReset : Prop :=
  ∀ (s : State) (r : PortIn) (ps : List PortIn) (b : Bool), r.rst = true →
    (∀ p ∈ ps, p.isSample = true) → ps.map selectBit = [true, true, true, true, true, true, b] →
    (pass (r :: ps) s).2 =
      [⟨if b then .abort else .flag, (ps.map PortIn.pos).headD 0, (ps.map PortIn.pos).getLastD 0, 0, 0, false, false⟩]

/-- A line of n one-bits from reset: an ABORT at the 7th, an IDLE at the 15th, and nothing else however long it
lasts (42_idle.md R140, R144). -/
def Obligations.IdleLineFromReset : Prop :=
  ∀ (s : State) (r : PortIn) (ps : List PortIn), r.rst = true →
    (∀ p ∈ ps, p.isSample = true ∧ selectBit p = true) →
    (pass (r :: ps) s).2.map Event.content =
      (if 7 ≤ ps.length then [⟨.abort, 0, 0, 0, 0, false, false⟩] else []) ++
      (if 15 ≤ ps.length then [⟨.idle, 0, 0, 0, 0, false, false⟩] else [])

/-- What the core decodes is what was sent (43_framer.md R164 to R182; the senders' language is 30_encoding.md R90):
from an open frame, the stuffed bits of any bytes and a closing flag give one BYTE for each byte, in order and with
its value, then the FLAG and the verdict on exactly these bytes, and leave a freshly opened frame. -/
def Obligations.SentFrameIsDecoded : Prop :=
  ∀ (s : State) (bytes : List Byte) (ps : List PortIn),
    JustOpened s → (∀ c, s.frameCap = some c → bytes.length ≤ c) →
    (∀ p ∈ ps, p.isSample = true) →
    ps.map selectBit = expand (bytes.map Token.byte ++ [Token.flag]) →
    (pass ps s).2.map Event.content =
      bytes.map (fun x => ⟨.byte, 0, 0, x, 0, false, false⟩) ++
      ⟨.flag, 0, 0, 0, 0, false, false⟩ :: verdictContent bytes ∧
    JustOpened (pass ps s).1
end

