-- ==== Sys2Proof/Laws/State.lean ====
section
/-!
SUPPORT. The small lemmas of the state's updates: one per field per update, so that no proof unfolds a record
update, and that `Hist` sees only the ring.
-/

namespace Sys2Proof.Machine

/-! ### clearEvents -/

@[simp] theorem clearEvents_sr (s : State) : (clearEvents s).sr = s.sr := rfl
@[simp] theorem clearEvents_ring (s : State) : (clearEvents s).ring = s.ring := rfl
@[simp] theorem clearEvents_ringWp (s : State) : (clearEvents s).ringWp = s.ringWp := rfl
@[simp] theorem clearEvents_ringFill (s : State) : (clearEvents s).ringFill = s.ringFill := rfl
@[simp] theorem clearEvents_fstate (s : State) : (clearEvents s).fstate = s.fstate := rfl
@[simp] theorem clearEvents_acc (s : State) : (clearEvents s).acc = s.acc := rfl
@[simp] theorem clearEvents_cnt (s : State) : (clearEvents s).cnt = s.cnt := rfl
@[simp] theorem clearEvents_fbuf (s : State) : (clearEvents s).fbuf = s.fbuf := rfl
@[simp] theorem clearEvents_frameStart (s : State) : (clearEvents s).frameStart = s.frameStart := rfl
@[simp] theorem clearEvents_byteStart (s : State) : (clearEvents s).byteStart = s.byteStart := rfl
@[simp] theorem clearEvents_idleCnt (s : State) : (clearEvents s).idleCnt = s.idleCnt := rfl
@[simp] theorem clearEvents_fault (s : State) : (clearEvents s).fault = s.fault := rfl
@[simp] theorem clearEvents_input (s : State) : (clearEvents s).input = s.input := rfl
@[simp] theorem clearEvents_out (s : State) : (clearEvents s).out = [] := rfl
@[simp] theorem clearEvents_frameCap (s : State) : (clearEvents s).frameCap = s.frameCap := rfl
@[simp] theorem clearEvents_freeDraws (s : State) : (clearEvents s).freeDraws = s.freeDraws := rfl
@[simp] theorem hist_clearEvents (j : Nat) (s : State) : hist j (clearEvents s) = hist j s := rfl

/-! ### emit -/

@[simp] theorem emit_sr (e : Event) (s : State) : (emit e s).sr = s.sr := rfl
@[simp] theorem emit_ring (e : Event) (s : State) : (emit e s).ring = s.ring := rfl
@[simp] theorem emit_ringWp (e : Event) (s : State) : (emit e s).ringWp = s.ringWp := rfl
@[simp] theorem emit_ringFill (e : Event) (s : State) : (emit e s).ringFill = s.ringFill := rfl
@[simp] theorem emit_fstate (e : Event) (s : State) : (emit e s).fstate = s.fstate := rfl
@[simp] theorem emit_acc (e : Event) (s : State) : (emit e s).acc = s.acc := rfl
@[simp] theorem emit_cnt (e : Event) (s : State) : (emit e s).cnt = s.cnt := rfl
@[simp] theorem emit_fbuf (e : Event) (s : State) : (emit e s).fbuf = s.fbuf := rfl
@[simp] theorem emit_frameStart (e : Event) (s : State) : (emit e s).frameStart = s.frameStart := rfl
@[simp] theorem emit_byteStart (e : Event) (s : State) : (emit e s).byteStart = s.byteStart := rfl
@[simp] theorem emit_idleCnt (e : Event) (s : State) : (emit e s).idleCnt = s.idleCnt := rfl
@[simp] theorem emit_fault (e : Event) (s : State) : (emit e s).fault = s.fault := rfl
@[simp] theorem emit_input (e : Event) (s : State) : (emit e s).input = s.input := rfl
@[simp] theorem emit_out (e : Event) (s : State) : (emit e s).out = s.out ++ [e] := rfl
@[simp] theorem emit_frameCap (e : Event) (s : State) : (emit e s).frameCap = s.frameCap := rfl
@[simp] theorem emit_freeDraws (e : Event) (s : State) : (emit e s).freeDraws = s.freeDraws := rfl
@[simp] theorem hist_emit (j : Nat) (e : Event) (s : State) : hist j (emit e s) = hist j s := rfl

/-! ### ringPush -/

@[simp] theorem ringPush_sr (p : Position) (s : State) : (ringPush p s).sr = s.sr := rfl
@[simp] theorem ringPush_ring (p : Position) (s : State) : (ringPush p s).ring = s.ring.set s.ringWp.toNat p s.ringWp.isLt := rfl
@[simp] theorem ringPush_ringWp (p : Position) (s : State) : (ringPush p s).ringWp = s.ringWp + 1 := rfl
@[simp] theorem ringPush_ringFill (p : Position) (s : State) : (ringPush p s).ringFill = BitVec.ofNat 5 (min (s.ringFill.toNat + 1) Config.ringDepth) := rfl
@[simp] theorem ringPush_fstate (p : Position) (s : State) : (ringPush p s).fstate = s.fstate := rfl
@[simp] theorem ringPush_acc (p : Position) (s : State) : (ringPush p s).acc = s.acc := rfl
@[simp] theorem ringPush_cnt (p : Position) (s : State) : (ringPush p s).cnt = s.cnt := rfl
@[simp] theorem ringPush_fbuf (p : Position) (s : State) : (ringPush p s).fbuf = s.fbuf := rfl
@[simp] theorem ringPush_frameStart (p : Position) (s : State) : (ringPush p s).frameStart = s.frameStart := rfl
@[simp] theorem ringPush_byteStart (p : Position) (s : State) : (ringPush p s).byteStart = s.byteStart := rfl
@[simp] theorem ringPush_idleCnt (p : Position) (s : State) : (ringPush p s).idleCnt = s.idleCnt := rfl
@[simp] theorem ringPush_fault (p : Position) (s : State) : (ringPush p s).fault = s.fault := rfl
@[simp] theorem ringPush_input (p : Position) (s : State) : (ringPush p s).input = s.input := rfl
@[simp] theorem ringPush_out (p : Position) (s : State) : (ringPush p s).out = s.out := rfl
@[simp] theorem ringPush_frameCap (p : Position) (s : State) : (ringPush p s).frameCap = s.frameCap := rfl
@[simp] theorem ringPush_freeDraws (p : Position) (s : State) : (ringPush p s).freeDraws = s.freeDraws := rfl

/-! ### shiftIn -/

@[simp] theorem shiftIn_sr (b : Bool) (s : State) : (shiftIn b s).sr = shiftWindow s.sr b := rfl
@[simp] theorem shiftIn_ring (b : Bool) (s : State) : (shiftIn b s).ring = s.ring := rfl
@[simp] theorem shiftIn_ringWp (b : Bool) (s : State) : (shiftIn b s).ringWp = s.ringWp := rfl
@[simp] theorem shiftIn_ringFill (b : Bool) (s : State) : (shiftIn b s).ringFill = s.ringFill := rfl
@[simp] theorem shiftIn_fstate (b : Bool) (s : State) : (shiftIn b s).fstate = s.fstate := rfl
@[simp] theorem shiftIn_acc (b : Bool) (s : State) : (shiftIn b s).acc = s.acc := rfl
@[simp] theorem shiftIn_cnt (b : Bool) (s : State) : (shiftIn b s).cnt = s.cnt := rfl
@[simp] theorem shiftIn_fbuf (b : Bool) (s : State) : (shiftIn b s).fbuf = s.fbuf := rfl
@[simp] theorem shiftIn_frameStart (b : Bool) (s : State) : (shiftIn b s).frameStart = s.frameStart := rfl
@[simp] theorem shiftIn_byteStart (b : Bool) (s : State) : (shiftIn b s).byteStart = s.byteStart := rfl
@[simp] theorem shiftIn_idleCnt (b : Bool) (s : State) : (shiftIn b s).idleCnt = s.idleCnt := rfl
@[simp] theorem shiftIn_fault (b : Bool) (s : State) : (shiftIn b s).fault = s.fault := rfl
@[simp] theorem shiftIn_input (b : Bool) (s : State) : (shiftIn b s).input = s.input := rfl
@[simp] theorem shiftIn_out (b : Bool) (s : State) : (shiftIn b s).out = s.out := rfl
@[simp] theorem shiftIn_frameCap (b : Bool) (s : State) : (shiftIn b s).frameCap = s.frameCap := rfl
@[simp] theorem shiftIn_freeDraws (b : Bool) (s : State) : (shiftIn b s).freeDraws = s.freeDraws := rfl
@[simp] theorem hist_shiftIn (j : Nat) (b : Bool) (s : State) : hist j (shiftIn b s) = hist j s := rfl

/-! ### fbufClear -/

@[simp] theorem fbufClear_sr (s : State) : (fbufClear s).sr = s.sr := rfl
@[simp] theorem fbufClear_ring (s : State) : (fbufClear s).ring = s.ring := rfl
@[simp] theorem fbufClear_ringWp (s : State) : (fbufClear s).ringWp = s.ringWp := rfl
@[simp] theorem fbufClear_ringFill (s : State) : (fbufClear s).ringFill = s.ringFill := rfl
@[simp] theorem fbufClear_fstate (s : State) : (fbufClear s).fstate = s.fstate := rfl
@[simp] theorem fbufClear_acc (s : State) : (fbufClear s).acc = s.acc := rfl
@[simp] theorem fbufClear_cnt (s : State) : (fbufClear s).cnt = s.cnt := rfl
@[simp] theorem fbufClear_fbuf (s : State) : (fbufClear s).fbuf = [] := rfl
@[simp] theorem fbufClear_frameStart (s : State) : (fbufClear s).frameStart = s.frameStart := rfl
@[simp] theorem fbufClear_byteStart (s : State) : (fbufClear s).byteStart = s.byteStart := rfl
@[simp] theorem fbufClear_idleCnt (s : State) : (fbufClear s).idleCnt = s.idleCnt := rfl
@[simp] theorem fbufClear_fault (s : State) : (fbufClear s).fault = s.fault := rfl
@[simp] theorem fbufClear_input (s : State) : (fbufClear s).input = s.input := rfl
@[simp] theorem fbufClear_out (s : State) : (fbufClear s).out = s.out := rfl
@[simp] theorem fbufClear_frameCap (s : State) : (fbufClear s).frameCap = s.frameCap := rfl
@[simp] theorem fbufClear_freeDraws (s : State) : (fbufClear s).freeDraws = s.freeDraws := rfl
@[simp] theorem hist_fbufClear (j : Nat) (s : State) : hist j (fbufClear s) = hist j s := rfl

/-! ### raiseFault -/

@[simp] theorem raiseFault_sr (f : Fault) (s : State) : (raiseFault f s).sr = s.sr := rfl
@[simp] theorem raiseFault_ring (f : Fault) (s : State) : (raiseFault f s).ring = s.ring := rfl
@[simp] theorem raiseFault_ringWp (f : Fault) (s : State) : (raiseFault f s).ringWp = s.ringWp := rfl
@[simp] theorem raiseFault_ringFill (f : Fault) (s : State) : (raiseFault f s).ringFill = s.ringFill := rfl
@[simp] theorem raiseFault_fstate (f : Fault) (s : State) : (raiseFault f s).fstate = s.fstate := rfl
@[simp] theorem raiseFault_acc (f : Fault) (s : State) : (raiseFault f s).acc = s.acc := rfl
@[simp] theorem raiseFault_cnt (f : Fault) (s : State) : (raiseFault f s).cnt = s.cnt := rfl
@[simp] theorem raiseFault_fbuf (f : Fault) (s : State) : (raiseFault f s).fbuf = s.fbuf := rfl
@[simp] theorem raiseFault_frameStart (f : Fault) (s : State) : (raiseFault f s).frameStart = s.frameStart := rfl
@[simp] theorem raiseFault_byteStart (f : Fault) (s : State) : (raiseFault f s).byteStart = s.byteStart := rfl
@[simp] theorem raiseFault_idleCnt (f : Fault) (s : State) : (raiseFault f s).idleCnt = s.idleCnt := rfl
@[simp] theorem raiseFault_fault (f : Fault) (s : State) : (raiseFault f s).fault = some f := rfl
@[simp] theorem raiseFault_input (f : Fault) (s : State) : (raiseFault f s).input = s.input := rfl
@[simp] theorem raiseFault_out (f : Fault) (s : State) : (raiseFault f s).out = [] := rfl
@[simp] theorem raiseFault_frameCap (f : Fault) (s : State) : (raiseFault f s).frameCap = s.frameCap := rfl
@[simp] theorem raiseFault_freeDraws (f : Fault) (s : State) : (raiseFault f s).freeDraws = s.freeDraws := rfl
@[simp] theorem hist_raiseFault (j : Nat) (f : Fault) (s : State) : hist j (raiseFault f s) = hist j s := rfl

/-! ### openFrame -/

@[simp] theorem openFrame_sr (s : State) : (openFrame s).sr = s.sr := rfl
@[simp] theorem openFrame_ring (s : State) : (openFrame s).ring = s.ring := rfl
@[simp] theorem openFrame_ringWp (s : State) : (openFrame s).ringWp = s.ringWp := rfl
@[simp] theorem openFrame_ringFill (s : State) : (openFrame s).ringFill = s.ringFill := rfl
@[simp] theorem openFrame_fstate (s : State) : (openFrame s).fstate = .frameActive := rfl
@[simp] theorem openFrame_acc (s : State) : (openFrame s).acc = 0 := rfl
@[simp] theorem openFrame_cnt (s : State) : (openFrame s).cnt = 0 := rfl
@[simp] theorem openFrame_fbuf (s : State) : (openFrame s).fbuf = [] := rfl
@[simp] theorem openFrame_frameStart (s : State) : (openFrame s).frameStart = hist 0 s := rfl
@[simp] theorem openFrame_byteStart (s : State) : (openFrame s).byteStart = s.byteStart := rfl
@[simp] theorem openFrame_idleCnt (s : State) : (openFrame s).idleCnt = s.idleCnt := rfl
@[simp] theorem openFrame_fault (s : State) : (openFrame s).fault = s.fault := rfl
@[simp] theorem openFrame_input (s : State) : (openFrame s).input = s.input := rfl
@[simp] theorem openFrame_out (s : State) : (openFrame s).out = s.out := rfl
@[simp] theorem openFrame_frameCap (s : State) : (openFrame s).frameCap = s.frameCap := rfl
@[simp] theorem openFrame_freeDraws (s : State) : (openFrame s).freeDraws = s.freeDraws := rfl
@[simp] theorem hist_openFrame (j : Nat) (s : State) : hist j (openFrame s) = hist j s := rfl

/-! ### closeFrame -/

@[simp] theorem closeFrame_sr (s : State) : (closeFrame s).sr = s.sr := rfl
@[simp] theorem closeFrame_ring (s : State) : (closeFrame s).ring = s.ring := rfl
@[simp] theorem closeFrame_ringWp (s : State) : (closeFrame s).ringWp = s.ringWp := rfl
@[simp] theorem closeFrame_ringFill (s : State) : (closeFrame s).ringFill = s.ringFill := rfl
@[simp] theorem closeFrame_fstate (s : State) : (closeFrame s).fstate = s.fstate := rfl
@[simp] theorem closeFrame_acc (s : State) : (closeFrame s).acc = s.acc := rfl
@[simp] theorem closeFrame_cnt (s : State) : (closeFrame s).cnt = s.cnt := rfl
@[simp] theorem closeFrame_fbuf (s : State) : (closeFrame s).fbuf = s.fbuf := rfl
@[simp] theorem closeFrame_frameStart (s : State) : (closeFrame s).frameStart = s.frameStart := rfl
@[simp] theorem closeFrame_byteStart (s : State) : (closeFrame s).byteStart = s.byteStart := rfl
@[simp] theorem closeFrame_idleCnt (s : State) : (closeFrame s).idleCnt = s.idleCnt := rfl
@[simp] theorem closeFrame_fault (s : State) : (closeFrame s).fault = s.fault := rfl
@[simp] theorem closeFrame_input (s : State) : (closeFrame s).input = s.input := rfl
@[simp] theorem closeFrame_out (s : State) : (closeFrame s).out = s.out ++ [frameResultEvent s] := rfl
@[simp] theorem closeFrame_frameCap (s : State) : (closeFrame s).frameCap = s.frameCap := rfl
@[simp] theorem closeFrame_freeDraws (s : State) : (closeFrame s).freeDraws = s.freeDraws := rfl
@[simp] theorem hist_closeFrame (j : Nat) (s : State) : hist j (closeFrame s) = hist j s := rfl

/-! ### emitFlag -/

@[simp] theorem emitFlag_sr (s : State) : (emitFlag s).sr = s.sr := rfl
@[simp] theorem emitFlag_ring (s : State) : (emitFlag s).ring = s.ring := rfl
@[simp] theorem emitFlag_ringWp (s : State) : (emitFlag s).ringWp = s.ringWp := rfl
@[simp] theorem emitFlag_ringFill (s : State) : (emitFlag s).ringFill = s.ringFill := rfl
@[simp] theorem emitFlag_fstate (s : State) : (emitFlag s).fstate = s.fstate := rfl
@[simp] theorem emitFlag_acc (s : State) : (emitFlag s).acc = s.acc := rfl
@[simp] theorem emitFlag_cnt (s : State) : (emitFlag s).cnt = s.cnt := rfl
@[simp] theorem emitFlag_fbuf (s : State) : (emitFlag s).fbuf = s.fbuf := rfl
@[simp] theorem emitFlag_frameStart (s : State) : (emitFlag s).frameStart = s.frameStart := rfl
@[simp] theorem emitFlag_byteStart (s : State) : (emitFlag s).byteStart = s.byteStart := rfl
@[simp] theorem emitFlag_idleCnt (s : State) : (emitFlag s).idleCnt = s.idleCnt := rfl
@[simp] theorem emitFlag_fault (s : State) : (emitFlag s).fault = s.fault := rfl
@[simp] theorem emitFlag_input (s : State) : (emitFlag s).input = s.input := rfl
@[simp] theorem emitFlag_out (s : State) : (emitFlag s).out = s.out ++ [flagEvent s] := rfl
@[simp] theorem emitFlag_frameCap (s : State) : (emitFlag s).frameCap = s.frameCap := rfl
@[simp] theorem emitFlag_freeDraws (s : State) : (emitFlag s).freeDraws = s.freeDraws := rfl
@[simp] theorem hist_emitFlag (j : Nat) (s : State) : hist j (emitFlag s) = hist j s := rfl

/-! ### abortDiscard -/

@[simp] theorem abortDiscard_sr (s : State) : (abortDiscard s).sr = s.sr := rfl
@[simp] theorem abortDiscard_ring (s : State) : (abortDiscard s).ring = s.ring := rfl
@[simp] theorem abortDiscard_ringWp (s : State) : (abortDiscard s).ringWp = s.ringWp := rfl
@[simp] theorem abortDiscard_ringFill (s : State) : (abortDiscard s).ringFill = s.ringFill := rfl
@[simp] theorem abortDiscard_fstate (s : State) : (abortDiscard s).fstate = .searching := rfl
@[simp] theorem abortDiscard_acc (s : State) : (abortDiscard s).acc = 0 := rfl
@[simp] theorem abortDiscard_cnt (s : State) : (abortDiscard s).cnt = 0 := rfl
@[simp] theorem abortDiscard_fbuf (s : State) : (abortDiscard s).fbuf = [] := rfl
@[simp] theorem abortDiscard_frameStart (s : State) : (abortDiscard s).frameStart = s.frameStart := rfl
@[simp] theorem abortDiscard_byteStart (s : State) : (abortDiscard s).byteStart = s.byteStart := rfl
@[simp] theorem abortDiscard_idleCnt (s : State) : (abortDiscard s).idleCnt = s.idleCnt := rfl
@[simp] theorem abortDiscard_fault (s : State) : (abortDiscard s).fault = s.fault := rfl
@[simp] theorem abortDiscard_input (s : State) : (abortDiscard s).input = s.input := rfl
@[simp] theorem abortDiscard_out (s : State) : (abortDiscard s).out = s.out ++ [abortEvent s] := rfl
@[simp] theorem abortDiscard_frameCap (s : State) : (abortDiscard s).frameCap = s.frameCap := rfl
@[simp] theorem abortDiscard_freeDraws (s : State) : (abortDiscard s).freeDraws = s.freeDraws := rfl
@[simp] theorem hist_abortDiscard (j : Nat) (s : State) : hist j (abortDiscard s) = hist j s := rfl

/-! ### foldIn -/

@[simp] theorem foldIn_sr (b : Bool) (s : State) : (foldIn b s).sr = s.sr := rfl
@[simp] theorem foldIn_ring (b : Bool) (s : State) : (foldIn b s).ring = s.ring := rfl
@[simp] theorem foldIn_ringWp (b : Bool) (s : State) : (foldIn b s).ringWp = s.ringWp := rfl
@[simp] theorem foldIn_ringFill (b : Bool) (s : State) : (foldIn b s).ringFill = s.ringFill := rfl
@[simp] theorem foldIn_fstate (b : Bool) (s : State) : (foldIn b s).fstate = s.fstate := rfl
@[simp] theorem foldIn_acc (b : Bool) (s : State) : (foldIn b s).acc = foldBit s.acc s.cnt b := rfl
@[simp] theorem foldIn_cnt (b : Bool) (s : State) : (foldIn b s).cnt = s.cnt := rfl
@[simp] theorem foldIn_fbuf (b : Bool) (s : State) : (foldIn b s).fbuf = s.fbuf := rfl
@[simp] theorem foldIn_frameStart (b : Bool) (s : State) : (foldIn b s).frameStart = s.frameStart := rfl
@[simp] theorem foldIn_byteStart (b : Bool) (s : State) : (foldIn b s).byteStart = if s.cnt = 0 then hist 0 s else s.byteStart := rfl
@[simp] theorem foldIn_idleCnt (b : Bool) (s : State) : (foldIn b s).idleCnt = s.idleCnt := rfl
@[simp] theorem foldIn_fault (b : Bool) (s : State) : (foldIn b s).fault = s.fault := rfl
@[simp] theorem foldIn_input (b : Bool) (s : State) : (foldIn b s).input = s.input := rfl
@[simp] theorem foldIn_out (b : Bool) (s : State) : (foldIn b s).out = s.out := rfl
@[simp] theorem foldIn_frameCap (b : Bool) (s : State) : (foldIn b s).frameCap = s.frameCap := rfl
@[simp] theorem foldIn_freeDraws (b : Bool) (s : State) : (foldIn b s).freeDraws = s.freeDraws := rfl
@[simp] theorem hist_foldIn (j : Nat) (b : Bool) (s : State) : hist j (foldIn b s) = hist j s := rfl

/-! ### idleZero -/

@[simp] theorem idleZero_sr (s : State) : (idleZero s).sr = s.sr := rfl
@[simp] theorem idleZero_ring (s : State) : (idleZero s).ring = s.ring := rfl
@[simp] theorem idleZero_ringWp (s : State) : (idleZero s).ringWp = s.ringWp := rfl
@[simp] theorem idleZero_ringFill (s : State) : (idleZero s).ringFill = s.ringFill := rfl
@[simp] theorem idleZero_fstate (s : State) : (idleZero s).fstate = s.fstate := rfl
@[simp] theorem idleZero_acc (s : State) : (idleZero s).acc = s.acc := rfl
@[simp] theorem idleZero_cnt (s : State) : (idleZero s).cnt = s.cnt := rfl
@[simp] theorem idleZero_fbuf (s : State) : (idleZero s).fbuf = s.fbuf := rfl
@[simp] theorem idleZero_frameStart (s : State) : (idleZero s).frameStart = s.frameStart := rfl
@[simp] theorem idleZero_byteStart (s : State) : (idleZero s).byteStart = s.byteStart := rfl
@[simp] theorem idleZero_idleCnt (s : State) : (idleZero s).idleCnt = 0 := rfl
@[simp] theorem idleZero_fault (s : State) : (idleZero s).fault = s.fault := rfl
@[simp] theorem idleZero_input (s : State) : (idleZero s).input = s.input := rfl
@[simp] theorem idleZero_out (s : State) : (idleZero s).out = s.out := rfl
@[simp] theorem idleZero_frameCap (s : State) : (idleZero s).frameCap = s.frameCap := rfl
@[simp] theorem idleZero_freeDraws (s : State) : (idleZero s).freeDraws = s.freeDraws := rfl
@[simp] theorem hist_idleZero (j : Nat) (s : State) : hist j (idleZero s) = hist j s := rfl

/-! ### consumeInput -/

@[simp] theorem consumeInput_sr (s : State) : (consumeInput s).sr = s.sr := rfl
@[simp] theorem consumeInput_ring (s : State) : (consumeInput s).ring = s.ring := rfl
@[simp] theorem consumeInput_ringWp (s : State) : (consumeInput s).ringWp = s.ringWp := rfl
@[simp] theorem consumeInput_ringFill (s : State) : (consumeInput s).ringFill = s.ringFill := rfl
@[simp] theorem consumeInput_fstate (s : State) : (consumeInput s).fstate = s.fstate := rfl
@[simp] theorem consumeInput_acc (s : State) : (consumeInput s).acc = s.acc := rfl
@[simp] theorem consumeInput_cnt (s : State) : (consumeInput s).cnt = s.cnt := rfl
@[simp] theorem consumeInput_fbuf (s : State) : (consumeInput s).fbuf = s.fbuf := rfl
@[simp] theorem consumeInput_frameStart (s : State) : (consumeInput s).frameStart = s.frameStart := rfl
@[simp] theorem consumeInput_byteStart (s : State) : (consumeInput s).byteStart = s.byteStart := rfl
@[simp] theorem consumeInput_idleCnt (s : State) : (consumeInput s).idleCnt = s.idleCnt := rfl
@[simp] theorem consumeInput_fault (s : State) : (consumeInput s).fault = s.fault := rfl
@[simp] theorem consumeInput_input (s : State) : (consumeInput s).input = s.input.tail := rfl
@[simp] theorem consumeInput_out (s : State) : (consumeInput s).out = s.out := rfl
@[simp] theorem consumeInput_frameCap (s : State) : (consumeInput s).frameCap = s.frameCap := rfl
@[simp] theorem consumeInput_freeDraws (s : State) : (consumeInput s).freeDraws = s.freeDraws := rfl
@[simp] theorem hist_consumeInput (j : Nat) (s : State) : hist j (consumeInput s) = hist j s := rfl

/-! ### resetCore -/

@[simp] theorem resetCore_sr (s : State) : (resetCore s).sr = 0 := rfl
@[simp] theorem resetCore_ring (s : State) : (resetCore s).ring = Vector.ofFn fun i : Fin 16 => Config.freePosition (s.freeDraws + i.val) := rfl
@[simp] theorem resetCore_ringWp (s : State) : (resetCore s).ringWp = 0 := rfl
@[simp] theorem resetCore_ringFill (s : State) : (resetCore s).ringFill = 0 := rfl
@[simp] theorem resetCore_fstate (s : State) : (resetCore s).fstate = .searching := rfl
@[simp] theorem resetCore_acc (s : State) : (resetCore s).acc = 0 := rfl
@[simp] theorem resetCore_cnt (s : State) : (resetCore s).cnt = 0 := rfl
@[simp] theorem resetCore_fbuf (s : State) : (resetCore s).fbuf = [] := rfl
@[simp] theorem resetCore_frameStart (s : State) : (resetCore s).frameStart = 0 := rfl
@[simp] theorem resetCore_byteStart (s : State) : (resetCore s).byteStart = 0 := rfl
@[simp] theorem resetCore_idleCnt (s : State) : (resetCore s).idleCnt = 0 := rfl
@[simp] theorem resetCore_fault (s : State) : (resetCore s).fault = none := rfl
@[simp] theorem resetCore_input (s : State) : (resetCore s).input = s.input := rfl
@[simp] theorem resetCore_out (s : State) : (resetCore s).out = [] := rfl
@[simp] theorem resetCore_frameCap (s : State) : (resetCore s).frameCap = s.frameCap := rfl
@[simp] theorem resetCore_freeDraws (s : State) : (resetCore s).freeDraws = s.freeDraws + Config.ringDepth := rfl

end Sys2Proof.Machine
end

