-- ==== Sys2Proof/Laws/Ops.lean ====
section
/-!
SUPPORT. One lemma per shared operation that says once everything it can do, and its frame. Later proofs cite these
instead of unfolding the operations.
-/

namespace Sys2Proof.Machine

/-- `Hist` depends on the ring alone. -/
theorem hist_congr {s t : State} (hr : s.ring = t.ring) (hw : s.ringWp = t.ringWp)
    (hf : s.ringFill = t.ringFill) (j : Nat) : hist j s = hist j t := by
  simp only [hist, ringAt, hr, hw, hf]

/-- FbufAppend answers the fault exactly when the finite buffer is full, else the byte appended (20_memory.md R57). -/
theorem fbufAppend_cases (b : Byte) (s : State) :
    (s.frameCap = some s.fbuf.length ∧ fbufAppend b s = .error .frameOverflow) ∨
      (s.frameCap ≠ some s.fbuf.length ∧ fbufAppend b s = .ok { s with fbuf := s.fbuf ++ [b] }) := by
  by_cases h : s.frameCap = some s.fbuf.length
  · exact .inl ⟨h, if_pos h⟩
  · exact .inr ⟨h, if_neg h⟩

/-- Completing a byte faults exactly when the finite buffer is full (43_framer.md R172). -/
theorem completeByte_cases (s : State) :
    (s.frameCap = some s.fbuf.length ∧ completeByte s = raiseFault .frameOverflow s) ∨
      (s.frameCap ≠ some s.fbuf.length ∧
        completeByte s = { s with
          acc := 0, cnt := 0, fbuf := s.fbuf ++ [s.acc], out := s.out ++ [byteEvent s.acc s] }) := by
  obtain ⟨h, e⟩ | ⟨h, e⟩ := fbufAppend_cases s.acc s
  · exact .inl ⟨h, by simp only [completeByte, e]⟩
  · exact .inr ⟨h, by simp only [completeByte, e]; rfl⟩

/-- Folding a bit (43_framer.md R172): before the 8th bit it is counted; at the 8th the byte is completed. -/
theorem dataFold_cases (b : Bool) (s : State) :
    (s.cnt ≠ 7 ∧ dataFold b s = { foldIn b s with cnt := s.cnt + 1 }) ∨
      (s.cnt = 7 ∧ dataFold b s = completeByte (foldIn b s)) := by
  by_cases h : s.cnt = 7
  · exact .inr ⟨h, by simp [dataFold, h]⟩
  · refine .inl ⟨h, if_neg fun e => h ?_⟩
    exact BitVec.eq_of_toNat_eq (by simpa using e)

/-- The framer writes neither the shift register, the ring, the idle counter, the input nor the model's own fields
(10_state.md R20). -/
theorem dataFold_frame (b : Bool) (s : State) :
    (dataFold b s).sr = s.sr ∧ (dataFold b s).ring = s.ring ∧ (dataFold b s).ringWp = s.ringWp ∧
      (dataFold b s).ringFill = s.ringFill ∧ (dataFold b s).idleCnt = s.idleCnt ∧
      (dataFold b s).input = s.input ∧ (dataFold b s).frameCap = s.frameCap ∧
      (dataFold b s).freeDraws = s.freeDraws ∧ (dataFold b s).fstate = s.fstate ∧
      (dataFold b s).frameStart = s.frameStart := by
  obtain ⟨-, e⟩ | ⟨-, e⟩ := dataFold_cases b s
  · simp [e]
  · obtain ⟨-, e'⟩ | ⟨-, e'⟩ := completeByte_cases (foldIn b s) <;> simp [e, e']

/-- The cases of the framer's step (43_framer.md R174). -/
theorem framerStep_cases (c : BitClass) (s : State) :
    (c = .flag ∧ s.fstate = .searching ∧ framerStep c s = flagOpen s) ∨
      (c = .flag ∧ s.fstate = .frameActive ∧ 2 ≤ s.fbuf.length ∧ framerStep c s = flagCloseOpen s) ∨
      (c = .flag ∧ s.fstate = .frameActive ∧ s.fbuf.length < 2 ∧ framerStep c s = flagResync s) ∨
      (c = .abort ∧ framerStep c s = abortDiscard s) ∨
      (c = .stuffed ∧ framerStep c s = s) ∨
      (∃ b, c = .data b ∧ s.fstate = .searching ∧ framerStep c s = s) ∨
      (∃ b, c = .data b ∧ s.fstate = .frameActive ∧ framerStep c s = dataFold b s) := by
  rcases c with _ | _ | _ | b <;> cases hf : s.fstate
  · simp [framerStep, hf]
  · by_cases hl : 2 ≤ s.fbuf.length
    · simp [framerStep, hf, Config.closeMin, hl]
    · simp [framerStep, hf, Config.closeMin, hl]; omega
  all_goals simp [framerStep, hf]

/-- What no class makes the framer write (10_state.md R20). -/
theorem framerStep_frame (c : BitClass) (s : State) :
    (framerStep c s).sr = s.sr ∧ (framerStep c s).ring = s.ring ∧ (framerStep c s).ringWp = s.ringWp ∧
      (framerStep c s).ringFill = s.ringFill ∧ (framerStep c s).idleCnt = s.idleCnt ∧
      (framerStep c s).input = s.input ∧ (framerStep c s).frameCap = s.frameCap ∧
      (framerStep c s).freeDraws = s.freeDraws := by
  obtain ⟨-, -, e⟩ | ⟨-, -, -, e⟩ | ⟨-, -, -, e⟩ | ⟨-, e⟩ | ⟨-, e⟩ | ⟨b, -, -, e⟩ | ⟨b, -, -, e⟩ :=
    framerStep_cases c s
  · simp [e, flagOpen]
  · simp [e, flagCloseOpen]
  · simp [e, flagResync]
  · simp [e]
  · simp [e]
  · simp [e]
  · obtain ⟨h1, h2, h3, h4, h5, h6, h7, h8, -, -⟩ := dataFold_frame b s
    simp [e, h1, h2, h3, h4, h5, h6, h7, h8]

/-- The idle update writes the counter and, on the transition to 15, one event; nothing else (42_idle.md R140). -/
theorem idleUpdate_cases (b : Bool) (s : State) :
    (b = false ∧ idleUpdate b s = { s with idleCnt := 0 }) ∨
      (b = true ∧ s.idleCnt.toNat < 14 ∧ idleUpdate b s = { s with idleCnt := s.idleCnt + 1 }) ∨
      (b = true ∧ s.idleCnt = 14 ∧
        idleUpdate b s = { s with idleCnt := 15, out := s.out ++ [idleEvent s] }) ∨
      (b = true ∧ s.idleCnt = 15 ∧ idleUpdate b s = s) := by
  cases b
  · exact .inl ⟨rfl, rfl⟩
  · have h16 := s.idleCnt.isLt
    have hcases : s.idleCnt.toNat < 14 ∨ s.idleCnt.toNat = 14 ∨ s.idleCnt.toNat = 15 := by omega
    obtain h | h | h := hcases
    · have h1 : s.idleCnt.toNat < 15 := by omega
      have h2 : s.idleCnt.toNat + 1 ≠ 15 := by omega
      exact .inr (.inl ⟨rfl, h, by simp [idleUpdate, idleOne, Config.idleT, h1, h2]⟩)
    · have e : s.idleCnt = 14 := BitVec.eq_of_toNat_eq (by simpa using h)
      exact .inr (.inr (.inl ⟨rfl, e, by simp [idleUpdate, idleOne, Config.idleT, e, emit, idleEvent]⟩))
    · have e : s.idleCnt = 15 := BitVec.eq_of_toNat_eq (by simpa using h)
      exact .inr (.inr (.inr ⟨rfl, e, by simp [idleUpdate, idleOne, Config.idleT, e]⟩))

/-- The two cases of a STEP's meaning (44_step.md R203). -/
theorem stepCore_cases (s : State) :
    (s.fault ≠ none ∧ stepCore s = clearEvents s) ∨
      (s.fault = none ∧
        stepCore s = finishStep (selectBit s.port)
          (framerStep (classify (shiftWindow s.sr (selectBit s.port)))
            (acceptBit s.port (clearEvents s)))) := by
  cases h : s.fault with
  | none => exact .inr ⟨rfl, by simp only [stepCore, h]; rfl⟩
  | some f => exact .inl ⟨by simp, by simp only [stepCore, h]⟩

/-- What the end of a step does (44_step.md R203): the idle update, unless the framer faulted. -/
theorem finishStep_cases (b : Bool) (s : State) :
    (s.fault = none ∧ finishStep b s = idleUpdate b s) ∨ (s.fault ≠ none ∧ finishStep b s = s) := by
  cases h : s.fault with
  | none => exact .inl ⟨rfl, by simp only [finishStep, h]⟩
  | some f => exact .inr ⟨by simp, by simp only [finishStep, h]⟩

/-- The row a cycle runs (30_encoding.md R71). -/
theorem fetch_eq (s : State) :
    fetch s = if s.port.rst then .reset s.port.inValid else if s.port.inValid then .step else .hold := by
  cases hr : s.port.rst <;> cases hv : s.port.inValid <;>
    simp [fetch, PortIn.ctrl, hr, hv, decodeCtrl2]

/-- Everything a clock cycle can do: it always answers a next state (44_step.md R204), RESET's, STEP's or HOLD's,
with the bundle consumed. -/
theorem step_eq (s : State) :
    step s = .next (consumeInput
      (if s.port.rst then resetCore s else if s.port.inValid then stepCore s else clearEvents s)) := by
  simp only [step, fetch_eq]
  cases s.port.rst <;> cases s.port.inValid <;> rfl

/-- A pass of no bundles. -/
@[simp] theorem cycles_zero (s : State) : cycles 0 s = (s, []) := rfl

/-- A pass of one cycle more. -/
theorem cycles_succ {s t : State} (n : Nat) (h : step s = .next t) :
    cycles (n + 1) s = ((cycles n t).1, t.out ++ (cycles n t).2) := by
  simp only [cycles, h]

end Sys2Proof.Machine
end

