-- ==== Sys2Proof/Laws/PerInstr.lean ====
section
/-!
SUPPORT. A statement about every row as syntax, one lemma per constructor: the row's word fits its format
(30_encoding.md R71, R73, R78), so that the decoder does not reject it by name.
-/

namespace Sys2Proof.Laws.Fits

/-- The word of the row has no bit above its format's width. -/
def Statement (i : Instr) : Prop := (encode i).toNat < 2 ^ i.format.width

theorem flag : Statement .flag := by unfold Statement; decide
theorem abort : Statement .abort := by unfold Statement; decide
theorem stuffed (hi : BitVec 2) : Statement (.stuffed hi) := (encode (.stuffed hi)).isLt
theorem data (w : BitVec 8) : Statement (.data w) := w.isLt
theorem reset (inValid : Bool) : Statement (.reset inValid) := by cases inValid <;> (unfold Statement; decide)
theorem step : Statement .step := by unfold Statement; decide
theorem hold : Statement .hold := by unfold Statement; decide
theorem flagOpen : Statement .flagOpen := by unfold Statement; decide
theorem flagCloseOpen : Statement .flagCloseOpen := by unfold Statement; decide
theorem flagResync : Statement .flagResync := by unfold Statement; decide
theorem abortDiscard (fs : FState) : Statement (.abortDiscard fs) := by cases fs <;> (unfold Statement; decide)
theorem stuffedIgnore : Statement .stuffedIgnore := by unfold Statement; decide
theorem stuffedDiscard : Statement .stuffedDiscard := by unfold Statement; decide
theorem dataIgnore : Statement .dataIgnore := by unfold Statement; decide
theorem dataFold : Statement .dataFold := by unfold Statement; decide
theorem idleOne : Statement .idleOne := by unfold Statement; decide
theorem idleZero : Statement .idleZero := by unfold Statement; decide

end Sys2Proof.Laws.Fits
end

