-- ==== Sys2Proof/Laws/Storage.lean ====
section
/-!
SUPPORT. Every operation on the core's two stores keeps their form, and the state after reset has it.
-/

namespace Sys2Proof.Machine

theorem reset_storageWf : StorageWf State.reset := by decide

/-- The ring push keeps the form (20_memory.md R52, 10_state.md R33 item 5). -/
theorem ringPush_storageWf {s : State} (p : Position) (h : StorageWf s) : StorageWf (ringPush p s) := by
  obtain ⟨h1, h2, h3⟩ := h
  have hw := s.ringWp.isLt
  simp only [Config.ringDepth] at h1 h2
  have hfill : (ringPush p s).ringFill.toNat = min (s.ringFill.toNat + 1) 16 := by
    simp only [ringPush_ringFill, BitVec.toNat_ofNat, Config.ringDepth]
    omega
  have hwp : (ringPush p s).ringWp.toNat = (s.ringWp.toNat + 1) % 16 := by
    simp [ringPush_ringWp, BitVec.toNat_add]
  refine ⟨?_, ?_, h3⟩ <;> simp only [hfill, hwp, Config.ringDepth]
  · omega
  · intro h4
    have := h2 (by omega)
    omega

/-- An append that answers no fault keeps the form (20_memory.md R57). -/
theorem fbufAppend_storageWf {s t : State} {b : Byte} (h : StorageWf s) (e : fbufAppend b s = .ok t) :
    StorageWf t := by
  obtain ⟨-, e'⟩ | ⟨hc, e'⟩ := fbufAppend_cases b s
  · simp [e'] at e
  · rw [e'] at e
    obtain rfl := Except.ok.inj e
    obtain ⟨h1, h2, h3⟩ := h
    refine ⟨h1, h2, ?_⟩
    cases hcap : s.frameCap with
    | none => rfl
    | some c =>
      have hle : s.fbuf.length ≤ c := by simpa [hcap] using h3
      have hne : c ≠ s.fbuf.length := by simpa [hcap] using hc
      simp only [Option.all_some, decide_eq_true_eq, List.length_append, List.length_singleton]
      omega

/-- Emptying the buffer keeps the form (20_memory.md R59). -/
theorem fbufClear_storageWf {s : State} (h : StorageWf s) : StorageWf (fbufClear s) := by
  obtain ⟨h1, h2, -⟩ := h
  exact ⟨h1, h2, by cases hc : s.frameCap <;> simp [hc]⟩

/-- RESET leaves both stores empty, so in form (70_reset_and_hazards.md R260). -/
theorem resetCore_storageWf (s : State) : StorageWf (resetCore s) :=
  ⟨by simp, by simp, by cases hc : s.frameCap <;> simp [hc]⟩

end Sys2Proof.Machine
end

