-- ==== Sys2Proof/Tests/Slice0.lean ====
section
/-!
SUPPORT. The model's own tests: expected values are the spec's (spec/95_test_vectors.md and the worked examples of
the rules), and one witness for the hypotheses of every statement that has some.
-/

namespace Sys2Proof.Tests

open Sys2Proof Sys2Proof.Machine

/-! ### Helpers -/

/-- The state an outcome answers. -/
def answer : Host.Outcome State Fault Refusal → State
  | .next t => t
  | .fault _ => State.reset
  | .refused _ => State.reset

/-- A state after the pushes of positions, oldest first. -/
def pushed (ps : List Position) (s : State) : State := ps.foldl (fun a p => ringPush p a) s

/-- An open frame with these bytes buffered and these bits folded. -/
def opened (fbuf : List Byte) (acc : Byte) (cnt : BitVec 3) : State :=
  { State.reset with sr := 0x7E, fstate := .frameActive, fbuf := fbuf, acc := acc, cnt := cnt }

/-- A sample on the primary line at a position. -/
def sample (b : Bool) (p : Position) : PortIn := { PortIn.quiet with inValid := true, dPri := b, pos := p }

/-- A RESET cycle. -/
def rstCycle : PortIn := { PortIn.quiet with rst := true }

/-! ### WellFormed: an ill-formed term for each check -/

theorem test_wf_stuffed_is_not_flag : (Instr.stuffed 0b01).wellFormed = false := by decide
theorem test_wf_data_is_not_flag : (Instr.data 0x7E).wellFormed = false := by decide
theorem test_wf_data_is_not_abort : (Instr.data 0x7F).wellFormed = false := by decide
theorem test_wf_data_is_not_stuffed : (Instr.data 0xBE).wellFormed = false := by decide
theorem test_admits_close_needs_two : Instr.flagCloseOpen.admits 1 = false := by decide
theorem test_admits_resync_under_two : Instr.flagResync.admits 2 = false := by decide

/-! ### Decoding: words written out from 30_encoding.md R71, R74, R78 and 42_idle.md R140 -/

theorem test_decode_flag : decode .win8 0 0b01111110#8 = .ok .flag := by decide
theorem test_decode_abort : decode .win8 0 0b01111111#8 = .ok .abort := by decide
theorem test_decode_stuffed : decode .win8 0 0b11111110#8 = .ok (.stuffed 0b11) := by decide
theorem test_decode_data : decode .win8 0 0b11111111#8 = .ok (.data 0xFF) := by decide
theorem test_decode_reset : decode .ctrl2 0 0b10#8 = .ok (.reset false) := by decide
theorem test_decode_step : decode .ctrl2 0 0b01#8 = .ok .step := by decide
theorem test_decode_hold : decode .ctrl2 0 0b00#8 = .ok .hold := by decide
theorem test_decode_flagOpen : decode .act3 9 0b000#8 = .ok .flagOpen := by decide
theorem test_decode_flagCloseOpen : decode .act3 2 0b001#8 = .ok .flagCloseOpen := by decide
theorem test_decode_flagResync : decode .act3 1 0b001#8 = .ok .flagResync := by decide
theorem test_decode_abortDiscard : decode .act3 0 0b011#8 = .ok (.abortDiscard .frameActive) := by decide
theorem test_decode_stuffedIgnore : decode .act3 0 0b100#8 = .ok .stuffedIgnore := by decide
theorem test_decode_stuffedDiscard : decode .act3 0 0b101#8 = .ok .stuffedDiscard := by decide
theorem test_decode_dataIgnore : decode .act3 0 0b110#8 = .ok .dataIgnore := by decide
theorem test_decode_dataFold : decode .act3 0 0b111#8 = .ok .dataFold := by decide
theorem test_decode_idleOne : decode .bit1 0 0b1#8 = .ok .idleOne := by decide
theorem test_decode_idleZero : decode .bit1 0 0b0#8 = .ok .idleZero := by decide
theorem test_decode_rejects_wide : decode .act3 0 0b1000#8 = .error (.tooWide .act3) := by decide

/-! ### Placing a bare table word for the very next cycle (log entries 12, 13) -/

theorem test_table_word_flag : decodeTableWord 8 0x7E = some .flag := by decide
theorem test_table_word_step : decodeTableWord 8 1 = some .step := by decide
theorem test_table_word_act3 : decodeTableWord 3 0 = some .flagOpen := by decide
theorem test_table_word_wide : decodeTableWord 1 2 = none := by decide
theorem test_fetch_step : (answer (step (State.reset.withFetchWord 8 1))).ringFill = 1 := by decide
theorem test_fetch_flag : (answer (step (State.reset.withFetchWord 8 0x7E))).fstate = .frameActive := by decide
theorem test_fetch_fold : (answer (step (State.reset.withFetchWord 8 7))).cnt = 1 := by decide

/-! ### The operations -/

/-- V-CL-3, V-CL-8, V-CL-10: the bit shifted out is ignored; seven ones then 0 are STUFFED; eight ones are DATA. -/
theorem test_classify_abort : classify (shiftWindow 0xBF true) = .abort := by decide
theorem test_classify_long_run_end : classify (shiftWindow 0x7F false) = .stuffed := by decide
theorem test_classify_eight_ones : classify (shiftWindow 0x7F true) = .data true := by decide

/-- V-CRC-5, V-CRC-16 (E1). -/
theorem test_crc_byte : crc16X25 [0x80] = 0x7470 := by decide +kernel
theorem test_crc_check_value :
    crc16X25 [0x31, 0x32, 0x33, 0x34, 0x35, 0x36, 0x37, 0x38, 0x39] = 0x906E := by decide +kernel

/-- V-RG-4: 20 pushes wrap the ring. -/
theorem test_ring_wraps :
    let s := pushed (List.range 20) State.reset
    s.ringWp = 4 ∧ s.ringFill = 16 ∧ s.ring.toList.take 5 = [16, 17, 18, 19, 4] ∧ hist 15 s = 4 := by decide +kernel

/-- V-RG-1: with 7 entries, `Hist(7)` clamps to the first. -/
theorem test_hist_clamps : hist 7 (pushed [100, 101, 102, 103, 104, 105, 106] State.reset) = 100 := by decide

/-- V-BS-6, V-BS-3: the secondary line when all three are 1; an absent data line falls back to the primary. -/
theorem test_select_secondary : selectBit ⟨false, true, false, true, true, true, true, 0⟩ = true := by decide
theorem test_select_absent : selectBit ⟨false, true, false, true, false, true, true, 0⟩ = false := by decide

/-- The token `B(1F)` of E4 is stuffed after its five ones; the program `F B(1F)` is `01111110 11111 0 000`. -/
theorem test_expand_stuffs :
    expand [.flag, .byte 0x1F] =
      flagBits ++ [true, true, true, true, true, false, false, false, false] := by decide +kernel

/-! ### The rows -/

/-- R203's worked example. -/
theorem test_step_first_sample :
    let t := answer (exec .step { State.reset with input := [sample false 100] })
    t.ring.toList.head? = some 100 ∧ t.ringWp = 1 ∧ t.ringFill = 1 ∧ t.sr = 0 ∧ t.out = [] := by decide

/-- V-FR-3's last step: one STEP emits FLAG, then FRAME_RESULT from the frame start. -/
theorem test_step_closes :
    (answer (exec .step
      { pushed (List.range 31) (opened [1, 2] 0x7E 7) with
        sr := 0x3F, frameStart := 7, input := [sample false 31] })).out =
      [⟨.flag, 24, 31, 0, 0, false, false⟩, ⟨.frameResult, 7, 31, 0, 2, false, true⟩] := by decide +kernel

/-- V-ST-4: RESET in mid-frame drops the frame and the sample. -/
theorem test_reset_mid_frame :
    let t := answer (exec (.reset true) { opened [1] 0 0 with input := [{ sample true 16 with rst := true }] })
    t.fstate = .searching ∧ t.fbuf = [] ∧ t.sr = 0 ∧ t.ringFill = 0 ∧ t.out = [] := by decide

theorem test_hold_keeps_state :
    exec .hold (opened [1] 3 2) = .next (opened [1] 3 2) := rfl

/-- R163's worked example: `F` from reset emits FLAG(0,7) and sets `frame_start = 7`. -/
theorem test_flagOpen :
    let t := answer (exec .flagOpen (pushed (List.range 8) State.reset))
    t.out = [⟨.flag, 0, 7, 0, 0, false, false⟩] ∧ t.frameStart = 7 ∧ t.fstate = .frameActive := by decide

/-- P1's last step: FRAME_RESULT(7, 80, count=8, crc_valid=1, too_short=0). -/
theorem test_flagCloseOpen_good_crc :
    (answer (exec .flagCloseOpen
      { pushed [73, 74, 75, 76, 77, 78, 79, 80]
          (opened [0x01, 0x00, 0xFE, 0x00, 0x80, 0x99, 0x49, 0xAF] 0x7E 7) with frameStart := 7 })).out =
      [⟨.flag, 73, 80, 0, 0, false, false⟩, ⟨.frameResult, 7, 80, 0, 8, true, false⟩] := by decide +kernel

/-- V-FR-7: a bad trailer. -/
theorem test_flagCloseOpen_bad_crc :
    (answer (exec .flagCloseOpen (opened [1, 2, 3, 4, 0, 0] 0 0))).ev1.map Event.crcValid = some false := by
  decide +kernel

/-- R165's worked example: one byte buffered, FLAG(16,23) and no FRAME_RESULT. -/
theorem test_flagResync :
    let t := answer (exec .flagResync (pushed (List.range 24) (opened [0x41] 0x7E 7)))
    t.out = [⟨.flag, 16, 23, 0, 0, false, false⟩] ∧ t.fbuf = [] ∧ t.cnt = 0 := by decide +kernel

/-- The FLAG row with one byte and with two. -/
theorem test_flag_resyncs : (answer (exec .flag (opened [1] 0 0))).evN = 1 := by decide
theorem test_flag_closes : (answer (exec .flag (opened [1, 2] 0 0))).evN = 2 := by decide

/-- E8: ABORT(23,30), and the frame is gone. -/
theorem test_abort :
    let t := answer (exec .abort (pushed (List.range 31) (opened [1, 2] 0x3F 6)))
    t.out = [⟨.abort, 23, 30, 0, 0, false, false⟩] ∧ t.fstate = .searching ∧ t.fbuf = [] ∧ t.acc = 0 := by
  decide +kernel
theorem test_abortDiscard_any_state :
    exec (.abortDiscard .searching) (opened [1] 1 1) = exec (.abortDiscard .frameActive) (opened [1] 1 1) := rfl

/-- E4, step 13: the stuffed bit leaves `cnt` at 5. -/
theorem test_stuffed : (answer (exec (.stuffed 0b10) (opened [] 0x1F 5))).cnt = 5 := by decide
theorem test_stuffedDiscard : (answer (exec .stuffedDiscard (opened [] 0x1F 5))).acc = 0x1F := by decide
theorem test_stuffedIgnore : exec .stuffedIgnore State.reset = .next State.reset := rfl
theorem test_dataIgnore : exec .dataIgnore State.reset = .next State.reset := rfl

/-- R170's worked example: DATA in SEARCHING changes nothing. -/
theorem test_data_searching : exec (.data 0x05) State.reset = .next State.reset := rfl

/-- V-FR-9: the flag's bits complete 0xF5 (`1 0 1` + `0 1 1 1 1`, the last one folded here). -/
theorem test_data_completes :
    (answer (exec (.data 0x0F) (opened [] 0x75 7))).fbuf = [0xF5] := by decide

/-- R172's worked example: BYTE(8, 15, value=0x01). -/
theorem test_dataFold_completes :
    let t := answer (exec .dataFold { pushed (List.range 16) (opened [] 0x01 7) with sr := 0x80, byteStart := 8 })
    t.out = [⟨.byte, 8, 15, 0x01, 0, false, false⟩] ∧ t.fbuf = [0x01] ∧ t.cnt = 0 ∧ t.acc = 0 := by decide +kernel

/-- V-ST-5: with `FRAME_CAP = 6` the 7th byte faults, with no events. -/
theorem test_dataFold_overflows :
    let t := answer (exec .dataFold { opened [1, 2, 3, 4, 5, 6] 7 7 with frameCap := some 6 })
    t.fault = some .frameOverflow ∧ t.out = [] ∧ t.fbuf.length = 6 := by decide

/-- E7: the 15th one fires IDLE(1,15); a further one does not. -/
theorem test_idleOne_fires :
    let t := answer (exec .idleOne { pushed (List.range 16) State.reset with idleCnt := 14 })
    t.idleCnt = 15 ∧ t.out = [⟨.idle, 1, 15, 0, 0, false, false⟩] := by decide +kernel
theorem test_idleOne_saturates :
    (answer (exec .idleOne { State.reset with idleCnt := 15 })).out = [] := by decide
theorem test_idleZero_clears : (answer (exec .idleZero { State.reset with idleCnt := 15 })).idleCnt = 0 := by decide

/-! ### Witnesses: the hypotheses of the statements can be met, at the values where clauses meet -/

/-- A state one DATA bit before an overflow. -/
def full : State :=
  { opened [1, 2, 3, 4, 5, 6] 0x07 7 with sr := 0x40, frameCap := some 6, input := [sample false 63] }

theorem witness_DecodeInvertsEncode_stuffed : (Instr.stuffed 0b11).wellFormed = true ∧ (Instr.stuffed 0b11).admits 0 = true := by
  decide
theorem witness_DecodeInvertsEncode_data : (Instr.data 0xFF).wellFormed = true ∧ (Instr.data 0xFF).admits 9 = true := by
  decide
theorem witness_DecodeInvertsEncode_close : Instr.flagCloseOpen.wellFormed = true ∧ Instr.flagCloseOpen.admits 2 = true := by
  decide
theorem witness_DecodeInvertsEncode_resync : Instr.flagResync.wellFormed = true ∧ Instr.flagResync.admits 1 = true := by
  decide
theorem witness_DecodedRowHasThatWord : decode .act3 2 0b001#8 = .ok .flagCloseOpen := by decide
theorem witness_NoReservedEncoding : (0x03#8).toNat < 2 ^ Format.ctrl2.width := by decide
theorem witness_StepRunsDecodedRow :
    decode .ctrl2 State.reset.fbuf.length State.reset.port.ctrl = .ok .hold ∧
      exec .hold State.reset = .next State.reset := ⟨by decide, rfl⟩
theorem witness_StepIsItsSubSteps_safe : State.reset.fault = none := rfl
theorem witness_StepIsItsSubSteps_faulted : { State.reset with fault := some Fault.frameOverflow }.fault ≠ none := by decide
theorem witness_WindowRowRunsItsAction :
    decode .win8 (opened [1, 2] 0 0).fbuf.length (opened [1, 2] 0 0).sr = .ok .flag := by decide
theorem witness_StepAcceptsBit :
    State.reset.fault = none ∧ State.reset.frameCap ≠ some State.reset.fbuf.length := by decide
/-- With the buffer full, a STEP that completes no byte does not fault either. -/
theorem witness_StepAcceptsBit_full :
    { full with cnt := 0 }.fault = none ∧ { full with cnt := 0 }.frameCap = some { full with cnt := 0 }.fbuf.length ∧
      (answer (exec .step { full with cnt := 0 })).fault = none := by decide
theorem witness_ExhaustedInputHolds : State.reset.input = [] := rfl
theorem witness_UnboundedBufferNeverFaults : State.reset.fault = none ∧ State.reset.frameCap = none := ⟨rfl, rfl⟩

theorem witness_OverflowExactlyWhenFull_faults : full.fault = none ∧ (answer (step full)).fault ≠ none := by decide
theorem witness_OverflowExactlyWhenFull_flag :
    { full with sr := 0x3F }.fault = none ∧ (answer (step { full with sr := 0x3F })).fault = none := by decide
theorem witness_OnlyResetLeavesFault_reset :
    { full with fault := some Fault.frameOverflow, input := [rstCycle] }.fault = some .frameOverflow ∧
      { full with fault := some Fault.frameOverflow, input := [rstCycle] }.port.rst = true := ⟨rfl, rfl⟩
theorem witness_OnlyResetLeavesFault_step :
    { full with fault := some Fault.frameOverflow }.fault = some .frameOverflow ∧
      { full with fault := some Fault.frameOverflow }.port.rst = false := ⟨rfl, rfl⟩
theorem witness_FlagOpenAndResyncResult : Instr.flagResync = .flagOpen ∨ Instr.flagResync = .flagResync := .inr rfl
theorem witness_CloseTooShortResult_two : 2 ≤ (opened [1, 2] 0 0).fbuf.length ∧ (opened [1, 2] 0 0).fbuf.length < 6 := by
  decide
theorem witness_CloseTooShortResult_five :
    2 ≤ (opened [1, 2, 3, 4, 5] 0 0).fbuf.length ∧ (opened [1, 2, 3, 4, 5] 0 0).fbuf.length < 6 := by decide
theorem witness_CloseCheckedResult :
    (opened [1, 2, 3, 4, 0x91, 0x39] 0 0).fbuf = [1, 2, 3, 4] ++ [0x91, 0x39] ∧
      6 ≤ (opened [1, 2, 3, 4, 0x91, 0x39] 0 0).fbuf.length := by decide
theorem witness_AbortResult : Instr.abortDiscard .searching = .abort ∨ ∃ fs, Instr.abortDiscard .searching = .abortDiscard fs :=
  .inr ⟨.searching, rfl⟩
theorem witness_IgnoredBitsResult_data : State.reset.fstate = .searching ∧ ∃ w, Instr.data 0xFF = .data w := ⟨rfl, _, rfl⟩
theorem witness_IgnoredBitsResult_stuffed : ∃ h, Instr.stuffed 0b11 = .stuffed h := ⟨_, rfl⟩
theorem witness_DataFoldResult_first :
    (Instr.dataFold = .dataFold ∧ false = (opened [] 0 0).sr.getLsbD 0) ∧
      0#8 = (opened [] 0 0).acc ||| (if false then 1#8 <<< (opened [] 0 0).cnt.toNat else 0#8) ∧
      (opened [] 0 0).cnt ≠ 7 := by decide
theorem witness_DataFoldResult_seventh :
    ((opened [] 0 6).fstate = .frameActive ∧ ∃ w : BitVec 8, Instr.data 0xFF = .data w ∧ true = w.getLsbD 0) ∧
      0x40#8 = (opened [] 0 6).acc ||| (if true then 1#8 <<< (opened [] 0 6).cnt.toNat else 0#8) ∧
      (opened [] 0 6).cnt ≠ 7 := ⟨⟨rfl, 0xFF, rfl, by decide⟩, by decide, by decide⟩
theorem witness_DataFoldResult_eighth :
    ((opened [] 0x75 7).fstate = .frameActive ∧ ∃ w : BitVec 8, Instr.data 0x0F = .data w ∧ true = w.getLsbD 0) ∧
      0xF5#8 = (opened [] 0x75 7).acc ||| (if true then 1#8 <<< (opened [] 0x75 7).cnt.toNat else 0#8) ∧
      (opened [] 0x75 7).cnt = 7 ∧ (opened [] 0x75 7).frameCap ≠ some (opened [] 0x75 7).fbuf.length :=
  ⟨⟨rfl, 0x0F, rfl, by decide⟩, by decide, by decide, by decide⟩
theorem witness_DataFoldResult_full :
    (Instr.dataFold = .dataFold ∧ false = full.sr.getLsbD 0) ∧
      0x07#8 = full.acc ||| (if false then 1#8 <<< full.cnt.toNat else 0#8) ∧
      full.cnt = 7 ∧ full.frameCap = some full.fbuf.length := by decide
theorem witness_EightBitsMakeTheByte :
    (opened [] 0 0).fstate = .frameActive ∧ (opened [] 0 0).cnt = 0 ∧ (opened [] 0 0).acc = 0 ∧
      (opened [] 0 0).frameCap ≠ some (opened [] 0 0).fbuf.length ∧
      [true, false, false, false, false, false, false, true].length = 8 := by decide
theorem witness_IdleCountIsRunOfOnes :
    State.reset.idleCnt = 0 ∧ (∀ p ∈ [sample true 0, sample true 1], p.isSample = true) ∧
      (pass [sample true 0, sample true 1] State.reset).1.fault = none := by decide +kernel
theorem witness_PushAgesHistory_first :
    0 < 15 ∧ 0 < (pushed [5] State.reset).ringFill.toNat ∧ (pushed [5] State.reset).ringFill.toNat ≤ 16 := by decide
theorem witness_PushAgesHistory_last :
    14 < 15 ∧ 14 < (pushed (List.range 16) State.reset).ringFill.toNat ∧
      (pushed (List.range 16) State.reset).ringFill.toNat ≤ 16 := by decide +kernel
theorem witness_RingIsLastSixteen :
    State.reset.ringFill = 0 ∧ State.reset.ringWp = 0 ∧ (∀ p ∈ [sample false 7], p.isSample = true) ∧
      [sample false 7] ≠ [] ∧ 15 ≤ 15 ∧ (pass [sample false 7] State.reset).1.fault = none := by decide +kernel
theorem witness_RunningCrcSameVerdict : 2 ≤ [0x00#8, 0x00#8].length := by decide
theorem witness_ResidueIffTrailerMatches : 2 ≤ [0x01#8, 0xF1#8, 0xE1#8].length := by decide
theorem witness_FieldsWrittenOnlyByTheirRows :
    exec .idleZero { State.reset with idleCnt := 3 } = .next State.reset := rfl
theorem witness_InvariantKeptByEveryCycle : Inv State.reset ∧ step State.reset = .next State.reset :=
  ⟨⟨by decide, fun _ => ⟨by decide, by decide, by decide, by decide, by decide⟩⟩, rfl⟩

/-- A faulted state under RESET, whose next state has no fault. -/
theorem witness_InvariantKeptByEveryCycle_faulted_reset :
    Inv { full with fault := some Fault.frameOverflow, input := [rstCycle] } ∧
      ∃ t, step { full with fault := some Fault.frameOverflow, input := [rstCycle] } = .next t ∧ t.safe :=
  ⟨⟨by decide, fun h => absurd h (by decide)⟩, _, rfl, rfl⟩

/-- A state with a capacity that no build has is ruled out, faulted or not. -/
theorem test_illegal_capacity_is_no_inv :
    ¬ Inv { full with fault := some Fault.frameOverflow, frameCap := some 2 } := fun h => absurd h.capLegal (by decide)

/-- The cycle that raises the fault starts in a state that meets the invariants. -/
theorem witness_InvariantKeptByEveryCycle_faults :
    Inv { full with sr := 0xC0 } ∧ (answer (step { full with sr := 0xC0 })).fault ≠ none :=
  ⟨⟨by decide, fun _ => ⟨by decide, by decide, by decide, by decide, by decide⟩⟩, by decide⟩

/-- A run of six ones in an open frame. -/
def sixOnes : State := { opened [] 0 0 with sr := 0x3F, idleCnt := 6 }

theorem witness_ClassByRunOfOnes_six : FramingInv sixOnes :=
  ⟨by decide, by decide, by decide, by decide, by decide⟩
theorem witness_ClassByRunOfOnes_four : FramingInv { sixOnes with sr := 0xEF, idleCnt := 4 } :=
  ⟨by decide, by decide, by decide, by decide, by decide⟩
theorem witness_ClassByRunOfOnes_seven :
    FramingInv { State.reset with sr := 0x7F, idleCnt := 7 } :=
  ⟨by decide, by decide, by decide, by decide, by decide⟩

/-- A closing FLAG one bit away. -/
def closing : State :=
  { opened [1, 2] 0x7E 7 with sr := 0x3F, idleCnt := 6, input := [sample false 31] }

theorem witness_EventsPerCycle : Inv closing ∧ ∃ t, step closing = .next t ∧ t.evN = 2 :=
  ⟨⟨by decide, fun _ => ⟨by decide, by decide, by decide, by decide, by decide⟩⟩, _, rfl, by decide⟩
theorem witness_EventFieldCombinations :
    ∃ t e, step closing = .next t ∧ e ∈ t.out ∧ e.kind = .frameResult :=
  ⟨_, ⟨.frameResult, 0, 31, 0, 2, false, true⟩, rfl, by decide, rfl⟩
theorem witness_SpansComeFromTheRing :
    ∃ t e, step closing = .next t ∧ e ∈ t.out ∧ e.kind = .flag :=
  ⟨_, ⟨.flag, 31, 31, 0, 0, false, false⟩, rfl, by decide, rfl⟩

/-- Fourteen ones seen, the fifteenth coming. -/
def fourteenOnes : State :=
  { State.reset with sr := 0xFF, idleCnt := 14, input := [sample true 14] }

theorem witness_IdleOnlyWhileSearching :
    Inv fourteenOnes ∧ ∃ t e, step fourteenOnes = .next t ∧ e ∈ t.out ∧ e.kind = .idle :=
  ⟨⟨by decide, fun _ => ⟨by decide, by decide, by decide, by decide, by decide⟩⟩,
    _, ⟨.idle, 14, 14, 0, 0, false, false⟩, rfl, by decide, rfl⟩
theorem witness_PositionsDoNotAffectDecoding :
    { State.reset with frameStart := 5 }.erasePositions = State.reset.erasePositions := by decide
theorem witness_ResetForgetsEverything : rstCycle.rst = true ∧ closing.frameCap = State.reset.frameCap := ⟨rfl, rfl⟩

/-- Six ones and a last bit, from reset. -/
def seven (b : Bool) : List PortIn :=
  [sample true 0, sample true 1, sample true 2, sample true 3, sample true 4, sample true 5, sample b 6]

theorem witness_SevenBitsAfterReset :
    rstCycle.rst = true ∧ (∀ p ∈ seven false, p.isSample = true) ∧
      (seven false).map selectBit = [true, true, true, true, true, true, false] := by decide
theorem witness_IdleLineFromReset :
    rstCycle.rst = true ∧ ∀ p ∈ seven true, p.isSample = true ∧ selectBit p = true := by decide
theorem witness_SentFrameIsDecoded :
    JustOpened (opened [] 0 0) ∧ (∀ c, (opened [] 0 0).frameCap = some c → [0xFF#8].length ≤ c) ∧
      (∀ p ∈ (expand ([0xFF#8].map Token.byte ++ [Token.flag])).map (sample · 0), p.isSample = true) ∧
      ((expand ([0xFF#8].map Token.byte ++ [Token.flag])).map (sample · 0)).map selectBit =
        expand ([0xFF#8].map Token.byte ++ [Token.flag]) :=
  ⟨⟨rfl, rfl, rfl, rfl, rfl, rfl, rfl⟩, (fun _ h => by cases h), by decide +kernel, by decide +kernel⟩

end Sys2Proof.Tests
end

/-!
PROOFS of the family 10_state.md: the laws of the idle counter and of a STEP, which rows write which field, the
invariants of R33, and the counter over a pass.
-/

namespace Sys2Proof.Machine

/-! ## Runs of ones, the shift register and the idle counter (R33 items 3 and 4) -/

@[simp] theorem leadingOnes_nil : leadingOnes [] = 0 := rfl

@[simp] theorem leadingOnes_cons (b : Bool) (bs : List Bool) :
    leadingOnes (b :: bs) = if b then leadingOnes bs + 1 else 0 := by
  cases b <;> rfl

theorem leadingOnes_take (n : Nat) (bs : List Bool) :
    leadingOnes (bs.take n) = min n (leadingOnes bs) := by
  induction bs generalizing n with
  | nil => simp
  | cons b bs ih =>
    cases n with
    | zero => simp
    | succ n => cases b <;> simp [ih]

@[simp] theorem leadingOnes_replicate_true (n : Nat) : leadingOnes (List.replicate n true) = n := by
  induction n with
  | zero => rfl
  | succ n ih => simp [List.replicate_succ, ih]

/-- Behind any bits, two tails with the same capped run of ones are alike up to the cap. -/
theorem leadingOnes_append_congr {k : Nat} {m m' : List Bool}
    (h : min k (leadingOnes m) = min k (leadingOnes m')) (bs : List Bool) :
    min k (leadingOnes (bs ++ m)) = min k (leadingOnes (bs ++ m')) := by
  induction bs with
  | nil => exact h
  | cons b bs ih => cases b <;> simp; omega

theorem bitByte_toNat (b : Bool) : (bitByte b).toNat = b.toNat := by cases b <;> rfl

/-- A shift puts the new bit in front of the seven newest ones (41_classifier.md R120). -/
theorem byteBits_shiftWindow (w : BitVec 8) (b : Bool) :
    byteBits (shiftWindow w b) = b :: (byteBits w).take 7 := by
  cases b <;> simp [byteBits, shiftWindow, bitByte, List.range_succ]

theorem trailingOnes_shiftWindow (w : BitVec 8) (b : Bool) :
    trailingOnes (shiftWindow w b) = if b then min 8 (trailingOnes w + 1) else 0 := by
  simp only [trailingOnes, byteBits_shiftWindow, leadingOnes_cons, leadingOnes_take]
  split <;> omega

theorem classify_eq_flag {w : BitVec 8} (h : classify w = .flag) : w = 0x7E := by
  unfold classify at h
  split_ifs at h
  assumption

/-- Of the 256 windows only ABORT's ends in exactly seven ones (41_classifier.md R123). -/
theorem eq_of_trailingOnes_eq_seven : ∀ w : BitVec 8, trailingOnes w = 7 → w = 0x7F := by
  decide +kernel

theorem classify_of_trailingOnes_eq_seven {w : BitVec 8} (h : trailingOnes w = 7) : classify w = .abort := by
  rw [eq_of_trailingOnes_eq_seven w h]
  rfl

/-- A FLAG's current bit is 0. -/
theorem trailingOnes_of_classify_eq_flag {w : BitVec 8} (h : classify w = .flag) : trailingOnes w = 0 := by
  rw [classify_eq_flag h]
  rfl

/-- The idle update in numbers (42_idle.md R140). -/
theorem idleUpdate_idleCnt_toNat (b : Bool) (s : State) :
    (idleUpdate b s).idleCnt.toNat = if b then min 15 (s.idleCnt.toNat + 1) else 0 := by
  obtain ⟨rfl, e⟩ | ⟨rfl, h, e⟩ | ⟨rfl, h, e⟩ | ⟨rfl, h, e⟩ := idleUpdate_cases b s
  · simp [e]
  · simp [e, BitVec.toNat_add]
    omega
  · simp [e, h]
  · simp [e, h]

/-- The idle update writes the counter and the output port alone. -/
theorem idleUpdate_eq (b : Bool) (s : State) :
    ∃ n es, idleUpdate b s = { s with idleCnt := n, out := es } := by
  obtain ⟨-, e⟩ | ⟨-, -, e⟩ | ⟨-, -, e⟩ | ⟨-, -, e⟩ := idleUpdate_cases b s <;> exact ⟨_, _, e⟩

/-! ## What a row and a step can do (10_state.md R20, 44_step.md R202) -/

/-- The three FLAG actions open a frame, whatever they emit before (43_framer.md R161 to R165). -/
theorem framerStep_flag_opens (s : State) : ∃ es, framerStep .flag s = openFrame { s with out := es } := by
  obtain ⟨-, -, e⟩ | ⟨-, -, -, e⟩ | ⟨-, -, -, e⟩ | ⟨h, -⟩ | ⟨h, -⟩ | ⟨_, h, -⟩ | ⟨_, h, -⟩ :=
    framerStep_cases .flag s
  · exact ⟨_, e⟩
  · exact ⟨_, e⟩
  · exact ⟨_, e⟩
  all_goals cases h

/-- A DATA bit is folded or ignored (43_framer.md R170, R172). -/
theorem framerStep_data_cases (b : Bool) (s : State) :
    framerStep (.data b) s = s ∨ framerStep (.data b) s = dataFold b s := by
  cases h : s.fstate with
  | searching => exact .inl (by simp [framerStep, h])
  | frameActive => exact .inr (by simp [framerStep, h])

/-- Everything a row can do, over all rows: the row and the state it answers. -/
theorem exec_cases {i : Instr} {s t : State} (h : exec i s = .next t) :
    ((i = .flag ∨ i = .flagOpen ∨ i = .flagCloseOpen ∨ i = .flagResync) ∧
        ∃ es, t = openFrame { s with out := es }) ∨
      ((i = .abort ∨ ∃ fs, i = .abortDiscard fs) ∧ t = abortDiscard s) ∨
      ((i = .dataFold ∨ ∃ w, i = .data w) ∧ (t = s ∨ ∃ b, t = dataFold b s)) ∨
      (((∃ hi, i = .stuffed hi) ∨ i = .stuffedIgnore ∨ i = .stuffedDiscard ∨ i = .dataIgnore) ∧ t = s) ∨
      ((i = .idleOne ∨ i = .idleZero) ∧ ∃ b, t = idleUpdate b s) ∨
      (i = .hold ∧ t = clearEvents s) ∨ (i = .step ∧ t = stepCore s) ∨
      ((∃ v, i = .reset v) ∧ t = resetCore s) := by
  cases i <;> obtain rfl := Host.Outcome.next.inj h
  case flag => exact .inl ⟨by simp, framerStep_flag_opens s⟩
  case flagOpen | flagCloseOpen | flagResync => exact .inl ⟨by simp, _, rfl⟩
  case abort | abortDiscard => exact .inr (.inl ⟨by simp, rfl⟩)
  case dataFold => exact .inr (.inr (.inl ⟨by simp, .inr ⟨_, rfl⟩⟩))
  case data w =>
    exact .inr (.inr (.inl ⟨by simp, (framerStep_data_cases (w.getLsbD 0) s).imp_right fun e => ⟨_, e⟩⟩))
  case stuffed | stuffedIgnore | stuffedDiscard | dataIgnore => exact .inr (.inr (.inr (.inl ⟨by simp, rfl⟩)))
  case idleOne => exact .inr (.inr (.inr (.inr (.inl ⟨by simp, true, rfl⟩))))
  case idleZero => exact .inr (.inr (.inr (.inr (.inl ⟨by simp, false, rfl⟩))))
  case hold | step | reset => simp

theorem dataFold_fbuf_length_le (b : Bool) (s : State) : (dataFold b s).fbuf.length ≤ s.fbuf.length + 1 := by
  obtain ⟨-, e⟩ | ⟨-, e⟩ := dataFold_cases b s
  · simp [e]
  · obtain ⟨-, e'⟩ | ⟨-, e'⟩ := completeByte_cases (foldIn b s) <;> simp [e, e']

theorem framerStep_fbuf_length_le (c : BitClass) (s : State) :
    (framerStep c s).fbuf.length ≤ s.fbuf.length + 1 := by
  cases c with
  | flag => obtain ⟨es, e⟩ := framerStep_flag_opens s; simp [e]
  | abort => exact Nat.zero_le _
  | stuffed => exact Nat.le_succ _
  | data b =>
    obtain e | e := framerStep_data_cases b s
    · simp [e]
    · simpa [e] using dataFold_fbuf_length_le b s

/-- The state before the idle update of a STEP: the ring push, the shift, the classifier and the framer have run
(44_step.md R202, sub-steps 1 to 4). -/
def framed (s : State) : State :=
  framerStep (classify (shiftWindow s.sr (selectBit s.port))) (acceptBit s.port (clearEvents s))

theorem framed_frame (s : State) :
    (framed s).sr = shiftWindow s.sr (selectBit s.port) ∧ (framed s).idleCnt = s.idleCnt ∧
      (framed s).input = s.input ∧ (framed s).frameCap = s.frameCap ∧ (framed s).freeDraws = s.freeDraws := by
  simp [framed, framerStep_frame, acceptBit]

theorem framed_fbuf_length_le (s : State) : (framed s).fbuf.length ≤ s.fbuf.length + 1 :=
  framerStep_fbuf_length_le _ (acceptBit s.port (clearEvents s))

/-- After the framer a STEP writes the idle counter and the output port alone, and with no fault it counts the
accepted bit, whatever its class (44_step.md R203, 42_idle.md R140). -/
theorem stepCore_eq_framed {s : State} (hs : s.fault = none) :
    ∃ n es, stepCore s = { framed s with idleCnt := n, out := es } ∧
      ((framed s).fault = none → n.toNat = if selectBit s.port then min 15 (s.idleCnt.toNat + 1) else 0) := by
  obtain ⟨h, -⟩ | ⟨-, e⟩ := stepCore_cases s
  · exact absurd hs h
  obtain ⟨hf, e'⟩ | ⟨hf, e'⟩ := finishStep_cases (selectBit s.port) (framed s)
  · obtain ⟨n, es, e''⟩ := idleUpdate_eq (selectBit s.port) (framed s)
    obtain ⟨-, hidle, -⟩ := framed_frame s
    have hcount := idleUpdate_idleCnt_toNat (selectBit s.port) (framed s)
    rw [e'', hidle] at hcount
    exact ⟨n, es, e.trans (e'.trans e''), fun _ => hcount⟩
  · exact ⟨_, _, e.trans e', fun h => absurd h hf⟩

/-- What a STEP leaves unchanged, and how far the buffer grows in it (10_state.md R20, R33 item 6). -/
theorem stepCore_frame (s : State) :
    (stepCore s).fbuf.length ≤ s.fbuf.length + 1 ∧ (stepCore s).input = s.input ∧
      (stepCore s).frameCap = s.frameCap ∧ (stepCore s).freeDraws = s.freeDraws := by
  obtain ⟨-, e⟩ | ⟨hs, -⟩ := stepCore_cases s
  · simp [e]
  · obtain ⟨n, es, e, -⟩ := stepCore_eq_framed hs
    simp [e, framed_frame s, framed_fbuf_length_le s]

theorem stepCore_fault_of_fault {s : State} (h : s.fault ≠ none) : (stepCore s).fault = s.fault := by
  obtain ⟨-, e⟩ | ⟨h', -⟩ := stepCore_cases s
  · simp [e]
  · exact absurd h' h

/-! ## Which rows write which field (O32) -/

/-- Settles O32: one case for each kind of row in `exec_cases`. -/
theorem fieldsWrittenOnlyByTheirRows : Obligations.FieldsWrittenOnlyByTheirRows := by
  intro i s t h
  obtain ⟨hi, es, rfl⟩ | ⟨hi, rfl⟩ | ⟨hi, rfl | ⟨b, rfl⟩⟩ | ⟨-, rfl⟩ | ⟨hi, b, rfl⟩ | ⟨-, rfl⟩ |
    ⟨rfl, rfl⟩ | ⟨⟨v, rfl⟩, rfl⟩ := exec_cases h
  · obtain rfl | rfl | rfl | rfl := hi <;> simp
  · obtain rfl | ⟨fs, rfl⟩ := hi <;> simp
  · simp
  · obtain rfl | ⟨w, rfl⟩ := hi <;> simp [dataFold_frame b s, dataFold_fbuf_length_le b s]
  · simp
  · obtain ⟨n, es, e⟩ := idleUpdate_eq b s
    obtain rfl | rfl := hi <;> simp [e]
  · simp
  · simp [stepCore_frame s]
  · simp

/-! ## The invariants of R33 (O34, O33) -/

/-- What R33 asks of the frame assembler alone: items 1 and 2, and the form of the stores (item 5). The other two
items tie the idle counter to it. -/
structure AssemblyInv (s : State) : Prop where
  accBelow : s.acc.toNat < 2 ^ s.cnt.toNat
  searchingEmpty : s.fstate = .searching → s.fbuf = [] ∧ s.acc = 0 ∧ s.cnt = 0
  storage : StorageWf s

theorem FramingInv.assembly {s : State} (h : FramingInv s) : AssemblyInv s :=
  ⟨h.accBelow, h.searchingEmpty, h.storage⟩

theorem clearEvents_assemblyInv {s : State} (h : AssemblyInv s) : AssemblyInv (clearEvents s) :=
  ⟨h.accBelow, h.searchingEmpty, h.storage⟩

theorem acceptBit_assemblyInv {s : State} (p : PortIn) (h : AssemblyInv s) : AssemblyInv (acceptBit p s) :=
  ⟨h.accBelow, h.searchingEmpty, ringPush_storageWf p.pos h.storage⟩

theorem openFrame_assemblyInv {s : State} (h : AssemblyInv s) : AssemblyInv (openFrame s) :=
  ⟨by simp, by simp, fbufClear_storageWf (s := s) h.storage⟩

theorem abortDiscard_assemblyInv {s : State} (h : AssemblyInv s) : AssemblyInv (abortDiscard s) :=
  ⟨by simp, by simp, fbufClear_storageWf (s := s) h.storage⟩

/-- A bit folded in at position `cnt` keeps the accumulator within the bits folded so far (43_framer.md R172). -/
theorem foldBit_toNat_lt {acc : Byte} {cnt : BitVec 3} (b : Bool) (h : acc.toNat < 2 ^ cnt.toNat) :
    (foldBit acc cnt b).toNat < 2 ^ (cnt.toNat + 1) := by
  have hpow : 2 ^ cnt.toNat < 2 ^ (cnt.toNat + 1) := Nat.pow_lt_pow_succ (by decide)
  have hbit : (bitByte b <<< cnt.toNat).toNat < 2 ^ (cnt.toNat + 1) := by
    rw [BitVec.toNat_shiftLeft, bitByte_toNat, Nat.shiftLeft_eq]
    refine (Nat.mod_le _ _).trans_lt ?_
    cases b <;> simp [hpow]
  simpa only [foldBit, BitVec.toNat_or] using Nat.or_lt_two_pow (h.trans hpow) hbit

/-- Folding a bit in an open frame keeps the assembler's invariant, unless the byte overflows the buffer. -/
theorem dataFold_assemblyInv {s : State} {b : Bool} (hopen : s.fstate = .frameActive) (h : AssemblyInv s)
    (hsafe : (dataFold b s).fault = none) : AssemblyInv (dataFold b s) := by
  obtain ⟨hc, e⟩ | ⟨-, e⟩ := dataFold_cases b s
  · have hcnt : (s.cnt + 1).toNat = s.cnt.toNat + 1 := by bv_omega
    rw [e]
    exact ⟨hcnt ▸ foldBit_toNat_lt b h.accBelow, by simp [hopen], h.storage⟩
  · obtain ⟨-, e'⟩ | ⟨hroom, e'⟩ := completeByte_cases (foldIn b s)
    · simp [e, e'] at hsafe
    · have hstore := fbufAppend_storageWf (s := foldIn b s) (b := (foldIn b s).acc) h.storage (if_neg hroom)
      rw [e, e']
      exact ⟨by simp, by simp [hopen], hstore⟩

theorem framerStep_assemblyInv {c : BitClass} {s : State} (h : AssemblyInv s)
    (hsafe : (framerStep c s).fault = none) : AssemblyInv (framerStep c s) := by
  obtain ⟨rfl, -⟩ | ⟨rfl, -⟩ | ⟨rfl, -⟩ | ⟨-, e⟩ | ⟨-, e⟩ | ⟨b, -, -, e⟩ | ⟨b, -, hopen, e⟩ := framerStep_cases c s
  case inl | inr.inl | inr.inr.inl =>
    obtain ⟨es, e⟩ := framerStep_flag_opens s
    exact e ▸ openFrame_assemblyInv ⟨h.accBelow, h.searchingEmpty, h.storage⟩
  · exact e ▸ abortDiscard_assemblyInv h
  · rwa [e]
  · rwa [e]
  · rw [e] at hsafe ⊢
    exact dataFold_assemblyInv hopen h hsafe

/-- A frame is open after the framer's step only by a FLAG, or because it was open and the class is not ABORT
(43_framer.md R160). -/
theorem framerStep_frameActive {c : BitClass} {s : State} (h : (framerStep c s).fstate = .frameActive) :
    c = .flag ∨ (s.fstate = .frameActive ∧ c ≠ .abort) := by
  cases c with
  | flag => exact .inl rfl
  | abort => simp [framerStep] at h
  | stuffed => exact .inr ⟨h, by simp⟩
  | data b =>
    refine .inr ⟨?_, by simp⟩
    obtain e | e := framerStep_data_cases b s
    · rwa [e] at h
    · obtain ⟨-, -, -, -, -, -, -, -, hf, -⟩ := dataFold_frame b s
      rwa [e, hf] at h

/-- The idle counter goes on being the run of ones at the end of the shift register (10_state.md R33 item 3). -/
theorem idleRun_shift {n m : Nat} {w : BitVec 8} {b : Bool} (h : min n 8 = trailingOnes w)
    (hm : m = if b then min 15 (n + 1) else 0) : min m 8 = trailingOnes (shiftWindow w b) := by
  rw [trailingOnes_shiftWindow, ← h, hm]
  split <;> omega

theorem framed_assemblyInv {s : State} (h : AssemblyInv s) (hsafe : (framed s).fault = none) :
    AssemblyInv (framed s) :=
  framerStep_assemblyInv (acceptBit_assemblyInv _ (clearEvents_assemblyInv h)) hsafe

/-- A STEP keeps the invariants of R33 unless it faults. A frame that is open after it was opened by this step's
FLAG, whose bit is 0, or was open before, and then a seventh one would have made an ABORT (R33 item 4). -/
theorem stepCore_framingInv {s : State} (hs : s.safe) (h : FramingInv s) (ht : (stepCore s).safe) :
    FramingInv (stepCore s) := by
  obtain ⟨n, es, e, hcount⟩ := stepCore_eq_framed hs
  obtain ⟨hsr, -⟩ := framed_frame s
  rw [e] at ht ⊢
  have hasm := framed_assemblyInv h.assembly ht
  have hrun : min n.toNat 8 = trailingOnes (framed s).sr := hsr ▸ idleRun_shift h.idleIsRun (hcount ht)
  refine ⟨hasm.accBelow, hasm.searchingEmpty, hrun, fun hopen' => ?_, hasm.storage⟩
  change n.toNat ≤ 6
  rw [hsr] at hrun
  obtain hflag | ⟨hopen, habort⟩ := framerStep_frameActive hopen'
  · have hzero := trailingOnes_of_classify_eq_flag hflag
    omega
  · have hsix := h.activeNotIdle hopen
    have hseven := mt classify_of_trailingOnes_eq_seven habort
    have hle : n.toNat ≤ s.idleCnt.toNat + 1 := by
      rw [hcount ht]
      split <;> omega
    omega

theorem resetCore_framingInv (s : State) : FramingInv (resetCore s) :=
  ⟨by simp, by simp, by simp; rfl, by simp, resetCore_storageWf s⟩

theorem stepCore_inv {s : State} (h : Inv s) : Inv (stepCore s) := by
  obtain ⟨-, -, hcap, -⟩ := stepCore_frame s
  refine ⟨hcap ▸ h.capLegal, fun ht => ?_⟩
  obtain ⟨hs, e⟩ | ⟨hs, -⟩ := stepCore_cases s
  · rw [e] at ht
    exact absurd ht hs
  · exact stepCore_framingInv hs (h.framing hs) ht

/-- RESET makes every state one that meets the invariants, the capacity being legal. -/
theorem resetCore_inv {s : State} (h : Config.frameCapOk s.frameCap = true) : Inv (resetCore s) :=
  ⟨h, fun _ => resetCore_framingInv s⟩

/-- The invariants do not see the two ports. -/
theorem Inv.setPorts {s : State} (h : Inv s) (ps : List PortIn) (es : List Event) :
    Inv { s with input := ps, out := es } := by
  refine ⟨h.capLegal, fun hs => ?_⟩
  obtain ⟨hacc, hsearching, hidle, hactive, hstore⟩ := h.framing hs
  exact ⟨hacc, hsearching, hidle, hactive, hstore⟩

/-- The clock cycle in three cases. -/
theorem step_cases {s t : State} (h : step s = .next t) :
    (s.port.rst = true ∧ t = consumeInput (resetCore s)) ∨
      (s.port.rst = false ∧ s.port.inValid = true ∧ t = consumeInput (stepCore s)) ∨
      (s.port.rst = false ∧ s.port.inValid = false ∧ t = consumeInput (clearEvents s)) := by
  rw [step_eq] at h
  obtain rfl := Host.Outcome.next.inj h
  cases s.port.rst <;> cases s.port.inValid <;> simp

/-- Settles O34: each kind of cycle keeps the invariants, STEP by `stepCore_framingInv`. -/
theorem invariantKeptByEveryCycle : Obligations.InvariantKeptByEveryCycle := by
  intro s t h hstep
  obtain ⟨-, rfl⟩ | ⟨-, -, rfl⟩ | ⟨-, -, rfl⟩ := step_cases hstep
  · exact (resetCore_inv h.capLegal).setPorts _ _
  · exact (stepCore_inv h).setPorts _ _
  · exact h.setPorts _ _

/-- Settles O33: the state after reset is the one RESET makes, the ring's entries apart. -/
theorem invariantAtReset : Obligations.InvariantAtReset := by
  obtain ⟨hacc, hsearching, hidle, hactive, hstore⟩ := resetCore_framingInv State.reset
  exact ⟨⟨rfl, fun _ => ⟨hacc, hsearching, hidle, hactive, hstore⟩⟩, rfl⟩

/-! ## The idle counter over a pass of samples (O26) -/

/-- Every cycle consumes its bundle and writes no other. -/
theorem step_input {s t : State} (h : step s = .next t) : t.input = s.input.tail := by
  obtain ⟨-, rfl⟩ | ⟨-, -, rfl⟩ | ⟨-, -, rfl⟩ := step_cases h
  · rfl
  · simp [stepCore_frame s]
  · rfl

/-- The first cycle of a pass, then the pass on the other bundles (44_step.md R209, R210). -/
theorem pass_cons {s t : State} {p : PortIn} {ps : List PortIn} (h : step { s with input := p :: ps } = .next t) :
    pass (p :: ps) s = ((pass ps t).1, t.out ++ (pass ps t).2) := by
  have hin : { t with input := ps } = t := by rw [← show t.input = ps from step_input h]
  rw [pass, List.length_cons, cycles_succ _ h, pass, hin]

/-- A sample at the head of a pass makes a STEP. -/
theorem step_sample {s : State} {p : PortIn} {ps : List PortIn} (hp : p.isSample = true) :
    step { s with input := p :: ps } = .next (consumeInput (stepCore { s with input := p :: ps })) := by
  have hport : State.port { s with input := p :: ps } = p := rfl
  obtain ⟨hr, hv⟩ : p.rst = false ∧ p.inValid = true := by simpa [PortIn.isSample] using hp
  rw [step_eq, hport, if_neg (by simp [hr]), if_pos hv]

/-- A pass of samples that ends with no fault never had one (60_exceptions.md R232). -/
theorem fault_none_of_pass_samples {s : State} {ps : List PortIn} (hps : ∀ p ∈ ps, p.isSample = true)
    (h : (pass ps s).1.fault = none) : s.fault = none := by
  induction ps generalizing s with
  | nil => exact h
  | cons p ps ih =>
    obtain ⟨hp, hps⟩ := List.forall_mem_cons.mp hps
    rw [pass_cons (step_sample hp)] at h
    by_contra hs
    exact hs ((stepCore_fault_of_fault (s := { s with input := p :: ps }) hs).symm.trans (ih hps h))

theorem stepCore_idleCnt_toNat {s : State} (hs : s.fault = none) (ht : (stepCore s).fault = none) :
    (stepCore s).idleCnt.toNat = if selectBit s.port then min 15 (s.idleCnt.toNat + 1) else 0 := by
  obtain ⟨n, es, e, hcount⟩ := stepCore_eq_framed hs
  rw [e] at ht ⊢
  exact hcount ht

/-- The counter after a pass of samples, from any counter: as if that many ones had come before. -/
theorem pass_samples_idleCnt {s : State} {ps : List PortIn} (hps : ∀ p ∈ ps, p.isSample = true)
    (h : (pass ps s).1.fault = none) :
    (pass ps s).1.idleCnt.toNat =
      min 15 (leadingOnes ((ps.map selectBit).reverse ++ List.replicate s.idleCnt.toNat true)) := by
  induction ps generalizing s with
  | nil =>
    have := s.idleCnt.isLt
    simp [pass]
    omega
  | cons p ps ih =>
    obtain ⟨hp, hps'⟩ := List.forall_mem_cons.mp hps
    have hs := fault_none_of_pass_samples hps h
    rw [pass_cons (step_sample hp)] at h ⊢
    have hcount := stepCore_idleCnt_toNat (s := { s with input := p :: ps }) hs (fault_none_of_pass_samples hps' h)
    rw [ih hps' h, List.map_cons, List.reverse_cons, List.append_assoc]
    refine leadingOnes_append_congr ?_ _
    rw [leadingOnes_replicate_true, consumeInput_idleCnt, hcount, List.singleton_append, leadingOnes_cons,
      leadingOnes_replicate_true]
    change min 15 (if selectBit p then min 15 (s.idleCnt.toNat + 1) else 0) = _
    split <;> omega

/-- Settles O26: `pass_samples_idleCnt` from a cleared counter. -/
theorem idleCountIsRunOfOnes : Obligations.IdleCountIsRunOfOnes := by
  intro s ps h0 hps h
  simpa [h0] using pass_samples_idleCnt hps h

end Sys2Proof.Machine

/-!
PROOFS of the family 20_memory.md: the ring's history and what a pass records in it, the bit a STEP accepts, the check
value of a closing frame, the byte of eight bits, and the first bits after a RESET.
-/

namespace Sys2Proof.Machine

/-! ## The ring push and `Hist` (O27) -/

/-- A push writes the entry at the write pointer alone (20_memory.md R52). -/
theorem ringAt_ringPush (p : Position) (s : State) (i : BitVec 4) :
    ringAt (ringPush p s) i = if i = s.ringWp then p else ringAt s i := by
  simp only [ringAt, ringPush_ring, Vector.getElem_set, eq_comm (b := i.toNat), BitVec.toNat_inj]

theorem ringPush_ringFill_toNat (p : Position) (s : State) :
    (ringPush p s).ringFill.toNat = min (s.ringFill.toNat + 1) 16 := by
  simp only [ringPush_ringFill, BitVec.toNat_ofNat, Config.ringDepth]
  omega

theorem ringPush_ringWp_toNat (p : Position) (s : State) :
    (ringPush p s).ringWp.toNat = (s.ringWp.toNat + 1) % 16 := by
  simp [BitVec.toNat_add]

@[simp] theorem hist_zero_ringPush (p : Position) (s : State) : hist 0 (ringPush p s) = p := by
  simp [hist, ringAt_ringPush]

/-- `Hist` clamps its depth to the oldest entry (20_memory.md R53). -/
theorem hist_min (j : Nat) (s : State) : hist (min j (s.ringFill.toNat - 1)) s = hist j s := by
  simp [hist]

/-- A push makes every recorded position a step older: its entry keeps its place, which is not the one written. -/
theorem hist_succ_ringPush {s : State} {j : Nat} (p : Position) (hj : j < 15) (hfill : j < s.ringFill.toNat) :
    hist (j + 1) (ringPush p s) = hist j s := by
  have hnew : min (j + 1) ((ringPush p s).ringFill.toNat - 1) = j + 1 := by
    rw [ringPush_ringFill_toNat]
    omega
  have hold : min j (s.ringFill.toNat - 1) = j := by omega
  have hidx : s.ringWp + 1 - 1 - BitVec.ofNat 4 (j + 1) = s.ringWp - 1 - BitVec.ofNat 4 j := by bv_omega
  have hne : s.ringWp - 1 - BitVec.ofNat 4 j ≠ s.ringWp := by bv_omega
  rw [hist, hist, hnew, hold, ringPush_ringWp, hidx, ringAt_ringPush, if_neg hne]

/-- Settles O27: `hist_zero_ringPush` and `hist_succ_ringPush`. -/
theorem pushAgesHistory : Obligations.PushAgesHistory :=
  fun s p => ⟨hist_zero_ringPush p s, fun _ hj hfill _ => hist_succ_ringPush p hj hfill⟩

/-! ## The ring over a pass of samples (O28) -/

/-- The ring of `s` is what pushing the positions `qs`, newest first, makes of an empty ring: it holds the newest 16
(20_memory.md R52, R53; 10_state.md R33 item 5). -/
structure RingHolds (qs : List Position) (s : State) : Prop where
  fill : s.ringFill.toNat = min qs.length 16
  wp : s.ringWp.toNat = qs.length % 16
  entry : ∀ j, j < min qs.length 16 → qs[j]? = some (hist j s)

/-- Only the ring's three fields matter. -/
theorem RingHolds.congr {qs : List Position} {s t : State} (h : RingHolds qs s) (hring : t.ring = s.ring)
    (hwp : t.ringWp = s.ringWp) (hfill : t.ringFill = s.ringFill) : RingHolds qs t :=
  ⟨hfill ▸ h.fill, hwp ▸ h.wp, fun j hj => hist_congr hring hwp hfill j ▸ h.entry j hj⟩

theorem ringHolds_nil {s : State} (hfill : s.ringFill = 0) (hwp : s.ringWp = 0) : RingHolds [] s :=
  ⟨by simp [hfill], by simp [hwp], by simp⟩

theorem ringHolds_ringPush {qs : List Position} {s : State} (h : RingHolds qs s) (p : Position) :
    RingHolds (p :: qs) (ringPush p s) := by
  obtain ⟨hfill, hwp, hentry⟩ := h
  refine ⟨?_, ?_, fun j hj => ?_⟩
  · rw [ringPush_ringFill_toNat, hfill, List.length_cons]
    omega
  · rw [ringPush_ringWp_toNat, hwp, List.length_cons]
    omega
  · rw [List.length_cons] at hj
    cases j with
    | zero => simp
    | succ j =>
      rw [hist_succ_ringPush p (by omega) (by omega), List.getElem?_cons_succ]
      exact hentry j (by omega)

/-- A reading deeper than the ring is the oldest entry (20_memory.md R53). -/
theorem RingHolds.getElem?_min {qs : List Position} {s : State} (h : RingHolds qs s) (hne : qs ≠ []) (j : Nat) :
    qs[min j (min qs.length 16 - 1)]? = some (hist j s) := by
  have hpos := List.length_pos_of_ne_nil hne
  rw [← hist_min j s, h.fill]
  exact h.entry _ (by omega)

/-- A STEP writes the shift register and the ring as its first two sub-steps do, overflow or not: nothing later in it
writes them (44_step.md R202, 10_state.md R20). -/
theorem stepCore_accepts {s : State} (hs : s.fault = none) :
    (stepCore s).sr = shiftWindow s.sr (selectBit s.port) ∧ (stepCore s).ring = (ringPush s.port.pos s).ring ∧
      (stepCore s).ringWp = (ringPush s.port.pos s).ringWp ∧
      (stepCore s).ringFill = (ringPush s.port.pos s).ringFill := by
  obtain ⟨n, es, e, -⟩ := stepCore_eq_framed hs
  simp [e, framed, framerStep_frame, acceptBit]

theorem ringHolds_stepCore {qs : List Position} {s : State} (h : RingHolds qs s) (hs : s.fault = none) :
    RingHolds (s.port.pos :: qs) (stepCore s) :=
  have ⟨_, hring, hwp, hfill⟩ := stepCore_accepts hs
  (ringHolds_ringPush h s.port.pos).congr hring hwp hfill

theorem ringHolds_pass_samples {qs : List Position} {s : State} {ps : List PortIn} (h : RingHolds qs s)
    (hps : ∀ p ∈ ps, p.isSample = true) (hsafe : (pass ps s).1.fault = none) :
    RingHolds ((ps.map PortIn.pos).reverse ++ qs) (pass ps s).1 := by
  induction ps generalizing s qs with
  | nil => exact h.congr rfl rfl rfl
  | cons p ps ih =>
    have hs := fault_none_of_pass_samples hps hsafe
    obtain ⟨hp, hps⟩ := List.forall_mem_cons.mp hps
    have hin : RingHolds qs { s with input := p :: ps } := h.congr rfl rfl rfl
    rw [pass_cons (step_sample hp)] at hsafe ⊢
    rw [List.map_cons, List.reverse_cons, List.append_assoc]
    exact ih ((ringHolds_stepCore hin hs).congr rfl rfl rfl) hps hsafe

/-- Settles O28: a pass of samples pushes their positions in turn (`ringHolds_pass_samples`), and a reading past the
oldest is clamped to it. -/
theorem ringIsLastSixteen : Obligations.RingIsLastSixteen := by
  intro s ps j hfill hwp hps hne _ hsafe
  have h := ringHolds_pass_samples (ringHolds_nil hfill hwp) hps hsafe
  rw [List.append_nil] at h
  have hclamp := h.getElem?_min (by simpa using hne) j
  have hfill' := h.fill
  have hwp' := h.wp
  rw [List.length_reverse, List.length_map] at hclamp hfill' hwp'
  exact ⟨hclamp, hfill', hwp'⟩

/-! ## A STEP accepts its bit (O9) -/

/-- `bitByte` is the bit's value (00_scope.md R7). -/
theorem bitByte_eq_ite (b : Bool) : bitByte b = if b then 1#8 else 0#8 := by
  cases b <;> rfl

/-- A byte that has room in the buffer does not fault (20_memory.md R57). -/
theorem dataFold_fault_of_room {s : State} (b : Bool) (hroom : s.frameCap ≠ some s.fbuf.length) :
    (dataFold b s).fault = s.fault := by
  obtain ⟨-, e⟩ | ⟨-, e⟩ := dataFold_cases b s
  · simp [e]
  · obtain ⟨hfull, -⟩ | ⟨-, e'⟩ := completeByte_cases (foldIn b s)
    · exact absurd hfull hroom
    · simp [e, e']

theorem framerStep_fault_of_room {s : State} (c : BitClass) (hroom : s.frameCap ≠ some s.fbuf.length) :
    (framerStep c s).fault = s.fault := by
  cases c with
  | flag => obtain ⟨es, e⟩ := framerStep_flag_opens s; simp [e]
  | abort => rfl
  | stuffed => rfl
  | data b =>
    obtain e | e := framerStep_data_cases b s
    · rw [e]
    · rw [e, dataFold_fault_of_room b hroom]

theorem stepCore_fault_of_room {s : State} (hs : s.fault = none) (hroom : s.frameCap ≠ some s.fbuf.length) :
    (stepCore s).fault = none := by
  obtain ⟨n, es, e, -⟩ := stepCore_eq_framed hs
  rw [e]
  exact (framerStep_fault_of_room (s := acceptBit s.port (clearEvents s)) _ hroom).trans hs

/-- Settles O9: `stepCore_accepts`, `stepCore_fault_of_room` and the frame of a STEP. -/
theorem stepAcceptsBit : Obligations.StepAcceptsBit := by
  intro s hs
  obtain ⟨hsr, hring, hwp, hfill⟩ := stepCore_accepts hs
  obtain ⟨-, hinput, hcap, hdraws⟩ := stepCore_frame s
  refine ⟨stepCore s, rfl, stepCore_fault_of_room hs, fun _ => ⟨?_, hring, ?_, ?_⟩, hinput, hcap, hdraws⟩
  · simp [hsr, shiftWindow, bitByte_eq_ite, selectBit, and_assoc]
  · rw [hwp, ringPush_ringWp_toNat]
  · rw [hfill, ringPush_ringFill_toNat]

/-! ## The check value of a closing frame (O19) -/

/-- The frame's last two bytes are the received check value, low byte first (20_memory.md R62). -/
theorem receivedCheck_append (body : List Byte) (lo hi : Byte) : receivedCheck (body ++ [lo, hi]) = hi ++ lo := by
  have hbytes : receivedCheck (body ++ [lo, hi]) = lo.setWidth 16 ||| (hi.setWidth 16 <<< 8) := by
    simp [receivedCheck]
  rw [hbytes, BitVec.or_comm, ← BitVec.setWidth_append_eq_shiftLeft_setWidth_or, BitVec.setWidth_eq]

theorem crcMatches_append (body : List Byte) (lo hi : Byte) :
    crcMatches (body ++ [lo, hi]) = decide (crc16X25 body = hi ++ lo) := by
  simp [crcMatches, receivedCheck_append, Config.fcsLen, beq_eq_decide]

/-- The FRAME_RESULT of a frame of 6 bytes or more (43_framer.md R182, R183). -/
theorem frameResultEvent_of_checked {s : State} {body : List Byte} {lo hi : Byte} (hbuf : s.fbuf = body ++ [lo, hi])
    (hlen : 6 ≤ s.fbuf.length) :
    frameResultEvent s =
      ⟨.frameResult, s.frameStart, hist 0 s, 0, s.fbuf.length, decide (crc16X25 body = hi ++ lo), false⟩ := by
  have hlong : tooShort s.fbuf = false := decide_eq_false (Nat.not_lt.mpr hlen)
  have hcrc : crcMatches s.fbuf = decide (crc16X25 body = hi ++ lo) := by rw [hbuf, crcMatches_append]
  simp [frameResultEvent, crcValid, hlong, hcrc]

/-- The row in one update: FLAG, the result of the frame there was, then a fresh frame (43_framer.md R164). -/
theorem flagCloseOpen_eq (s : State) :
    flagCloseOpen s = { s with
      fbuf := [], acc := 0, cnt := 0, fstate := .frameActive, frameStart := hist 0 s
      out := s.out ++ [flagEvent s, frameResultEvent s] } := by
  have hout : (flagCloseOpen s).out = s.out ++ [flagEvent s, frameResultEvent s] :=
    List.append_assoc s.out [flagEvent s] [frameResultEvent s]
  rw [← hout]
  rfl

/-- Settles O19: the result of `flagCloseOpen_eq` is a checked one. -/
theorem closeCheckedResult : Obligations.CloseCheckedResult := by
  intro s body lo hi hbuf hlen
  change Host.Outcome.next (flagCloseOpen s) = _
  rw [flagCloseOpen_eq, frameResultEvent_of_checked hbuf hlen]
  rfl

/-! ## Eight bits make a byte (O24) -/

/-- A bit folded in above those already there adds its value (43_framer.md R172, 20_memory.md R60). -/
theorem foldBit_toNat {acc : Byte} {cnt : BitVec 3} (b : Bool) (h : acc.toNat < 2 ^ cnt.toNat) :
    (foldBit acc cnt b).toNat = acc.toNat + b.toNat <<< cnt.toNat := by
  have hcnt := cnt.isLt
  have hbit : (bitByte b <<< cnt.toNat).toNat = b.toNat <<< cnt.toNat := by
    rw [BitVec.toNat_shiftLeft, bitByte_toNat, Nat.shiftLeft_eq]
    refine Nat.mod_eq_of_lt ?_
    calc b.toNat * 2 ^ cnt.toNat ≤ 1 * 2 ^ cnt.toNat := Nat.mul_le_mul_right _ b.toNat_le
      _ < 2 ^ 8 := by simpa only [Nat.one_mul] using Nat.pow_lt_pow_right (by decide) hcnt
  rw [foldBit, BitVec.toNat_or, hbit, Nat.or_comm, ← Nat.shiftLeft_add_eq_or_of_lt h, Nat.add_comm]

/-- A DATA row whose window is a lone bit folds that bit, in an open frame (43_framer.md R172). -/
theorem exec_data_bitByte {s : State} (hopen : s.fstate = .frameActive) (d : Bool) :
    exec (.data (bitByte d)) s = .next (dataFold d s) := by
  have hbit : (bitByte d).getLsbD 0 = d := by cases d <;> rfl
  change Host.Outcome.next (framerStep (.data ((bitByte d).getLsbD 0)) s) = _
  rw [hbit]
  simp [framerStep, hopen]

/-- The DATA bits that complete the byte in progress: their values come on top of the accumulator, and one BYTE is
emitted (43_framer.md R172). -/
theorem execAll_data_completes {s : State} {ds : List Bool} (hopen : s.fstate = .frameActive)
    (hacc : s.acc.toNat < 2 ^ s.cnt.toNat) (hroom : s.frameCap ≠ some s.fbuf.length)
    (hlen : s.cnt.toNat + ds.length = 8) :
    ∃ (t : State) (v : Byte), execAll (ds.map fun d => .data (bitByte d)) s = some t ∧
      v.toNat = s.acc.toNat + ((ds.zipIdx s.cnt.toNat).map fun di => di.1.toNat <<< di.2).sum ∧
      t.fbuf = s.fbuf ++ [v] ∧ t.cnt = 0 ∧ t.acc = 0 ∧
      t.out = s.out ++ [⟨.byte, if s.cnt = 0 then hist 0 s else s.byteStart, hist 0 s, v, 0, false, false⟩] := by
  induction ds generalizing s with
  | nil =>
    have := s.cnt.isLt
    simp at hlen
    omega
  | cons d ds ih =>
    have hrun : execAll ((d :: ds).map fun d => .data (bitByte d)) s =
        execAll (ds.map fun d => .data (bitByte d)) (dataFold d s) := by
      simp [execAll, exec_data_bitByte hopen]
    rw [List.length_cons] at hlen
    rw [hrun, List.zipIdx_cons, List.map_cons, List.sum_cons, ← Nat.add_assoc, ← foldBit_toNat d hacc]
    obtain ⟨hcnt, e⟩ | ⟨hcnt, e⟩ := dataFold_cases d s
    · have hnext : (s.cnt + 1).toNat = s.cnt.toNat + 1 := by bv_omega
      have hne : s.cnt + 1 ≠ 0 := by bv_omega
      obtain ⟨t, v, hrun', hv, hfbuf, hcnt', hacc', hout⟩ :=
        ih (s := { foldIn d s with cnt := s.cnt + 1 }) hopen (hnext ▸ foldBit_toNat_lt d hacc) hroom
          (by simp only [hnext]; omega)
      rw [if_neg hne] at hout
      rw [e, ← hnext]
      exact ⟨t, v, hrun', hv, hfbuf, hcnt', hacc', hout⟩
    · obtain ⟨hfull, -⟩ | ⟨-, e'⟩ := completeByte_cases (foldIn d s)
      · exact absurd hfull hroom
      · obtain rfl : ds = [] := List.eq_nil_of_length_eq_zero (by simp [hcnt] at hlen; omega)
        rw [e, e']
        exact ⟨_, _, rfl, by simp, rfl, rfl, rfl, rfl⟩

/-- Settles O24: `execAll_data_completes` from an empty accumulator. -/
theorem eightBitsMakeTheByte : Obligations.EightBitsMakeTheByte := by
  intro s ds hopen hcnt hacc hroom hlen
  obtain ⟨t, v, hrun, hv, hfbuf, hcnt', hacc', hout⟩ :=
    execAll_data_completes (ds := ds) hopen (by simp [hacc, hcnt]) hroom (by simp [hcnt, hlen])
  exact ⟨t, v, hrun, by simpa [hacc, hcnt] using hv, hfbuf, hcnt', hacc', by simpa [hcnt] using hout⟩

/-! ## The first bits after a RESET (O43) -/

/-- The events of a bit's class while SEARCHING (43_framer.md R163, R166, R167, R170), spans from the ring of `s`. -/
def searchingEvents (c : BitClass) (s : State) : List Event :=
  match c with
  | .flag => [flagEvent s]
  | .abort => [abortEvent s]
  | .stuffed | .data _ => []

theorem framerStep_of_searching {s : State} (c : BitClass) (hsearch : s.fstate = .searching) :
    (framerStep c s).fault = s.fault ∧ (framerStep c s).out = s.out ++ searchingEvents c s ∧
      (c ≠ .flag → (framerStep c s).fstate = .searching) := by
  cases c <;> simp [framerStep, hsearch, flagOpen, searchingEvents]

/-- Below the transition to 15 the idle update emits nothing (42_idle.md R140). -/
theorem idleUpdate_of_lt {s : State} (b : Bool) (h : s.idleCnt.toNat < 14) :
    ∃ n, idleUpdate b s = { s with idleCnt := n } := by
  obtain ⟨-, e⟩ | ⟨-, -, e⟩ | ⟨-, h', -⟩ | ⟨-, h', -⟩ := idleUpdate_cases b s
  · exact ⟨_, e⟩
  · exact ⟨_, e⟩
  all_goals simp [h'] at h

/-- A STEP that starts while SEARCHING, with no IDLE to come, emits its class's events and does not fault. -/
theorem stepCore_of_searching {s : State} {c : BitClass} (hs : s.fault = none) (hsearch : s.fstate = .searching)
    (hidle : s.idleCnt.toNat < 14) (hc : classify (shiftWindow s.sr (selectBit s.port)) = c) :
    (stepCore s).fault = none ∧ (stepCore s).out = searchingEvents c (ringPush s.port.pos s) ∧
      (c ≠ .flag → (stepCore s).fstate = .searching) := by
  obtain ⟨hfault, hout, hstate⟩ := framerStep_of_searching (s := acceptBit s.port (clearEvents s)) c hsearch
  obtain ⟨-, hcnt, -⟩ := framed_frame s
  obtain ⟨h, -⟩ | ⟨-, e⟩ := stepCore_cases s
  · exact absurd hs h
  obtain ⟨-, e'⟩ | ⟨h, -⟩ := finishStep_cases (selectBit s.port) (framed s)
  · obtain ⟨n, e''⟩ := idleUpdate_of_lt (s := framed s) (selectBit s.port) (hcnt ▸ hidle)
    rw [e.trans (e'.trans e''), framed, hc]
    exact ⟨hfault.trans hs, hout, hstate⟩
  · exact absurd ((hc ▸ hfault).trans hs) h

/-- The state after one-bits alone since RESET, accepted at the positions `qs`, newest first. -/
structure OnesSinceReset (qs : List Position) (s : State) : Prop where
  isSafe : s.safe
  searching : s.fstate = .searching
  window : s.sr = BitVec.ofNat 8 (2 ^ qs.length - 1)
  idle : s.idleCnt.toNat = qs.length
  ring : RingHolds qs s

theorem resetCore_onesSinceReset (s : State) : OnesSinceReset [] (resetCore s) :=
  ⟨rfl, rfl, rfl, rfl, ringHolds_nil rfl rfl⟩

/-- The invariant does not see the input port. -/
theorem OnesSinceReset.setInput {qs : List Position} {s : State} (h : OnesSinceReset qs s) (ps : List PortIn) :
    OnesSinceReset qs { s with input := ps } :=
  ⟨h.isSafe, h.searching, h.window, h.idle, h.ring.congr rfl rfl rfl⟩

/-- One-bits up to the sixth fill the window from below, and their class is DATA (41_classifier.md R125). -/
theorem shiftWindow_ones {n : Nat} (hn : n < 6) :
    shiftWindow (BitVec.ofNat 8 (2 ^ n - 1)) true = BitVec.ofNat 8 (2 ^ (n + 1) - 1) ∧
      classify (BitVec.ofNat 8 (2 ^ (n + 1) - 1)) = .data true := by
  revert n
  decide

theorem stepCore_onesSinceReset {qs : List Position} {s : State} (h : OnesSinceReset qs s) (hn : qs.length < 6)
    (hbit : selectBit s.port = true) :
    OnesSinceReset (s.port.pos :: qs) (stepCore s) ∧ (stepCore s).out = [] := by
  obtain ⟨hs, hsearch, hsr, hidle, hring⟩ := h
  obtain ⟨hwin, hclass⟩ := shiftWindow_ones hn
  have hshift : shiftWindow s.sr (selectBit s.port) = BitVec.ofNat 8 (2 ^ (qs.length + 1) - 1) := by
    rw [hsr, hbit, hwin]
  obtain ⟨hs', hout, hsearch'⟩ := stepCore_of_searching hs hsearch (by omega) (hshift ▸ hclass)
  obtain ⟨hsr', -⟩ := stepCore_accepts hs
  have hcount : (stepCore s).idleCnt.toNat = qs.length + 1 := by
    rw [stepCore_idleCnt_toNat hs hs', if_pos hbit, hidle]
    omega
  exact ⟨⟨hs', hsearch' (by simp), hsr'.trans hshift, hcount, ringHolds_stepCore hring hs⟩, hout⟩

/-- One-bits from RESET on, up to the sixth, emit nothing: the pass goes on behind them. -/
theorem pass_onesSinceReset {qs : List Position} {s : State} {ps : List PortIn} (rest : List PortIn)
    (h : OnesSinceReset qs s) (hps : ∀ p ∈ ps, p.isSample = true ∧ selectBit p = true)
    (hn : qs.length + ps.length ≤ 6) :
    ∃ t, OnesSinceReset ((ps.map PortIn.pos).reverse ++ qs) t ∧ pass (ps ++ rest) s = pass rest t := by
  induction ps generalizing qs s with
  | nil => exact ⟨s, h, rfl⟩
  | cons p ps ih =>
    obtain ⟨⟨hp, hbit⟩, hps⟩ := List.forall_mem_cons.mp hps
    rw [List.length_cons] at hn
    obtain ⟨hnext, hout⟩ := stepCore_onesSinceReset (h.setInput (p :: (ps ++ rest))) (by omega) hbit
    have hcycle : OnesSinceReset (p.pos :: qs) (consumeInput (stepCore { s with input := p :: (ps ++ rest) })) :=
      hnext.setInput _
    obtain ⟨t, ht, e⟩ := ih hcycle hps (by rw [List.length_cons]; omega)
    refine ⟨t, by simpa using ht, ?_⟩
    rw [List.cons_append, pass_cons (step_sample hp), consumeInput_out, hout, List.nil_append]
    exact e

/-- A RESET at the head of a pass emits nothing (70_reset_and_hazards.md R260). -/
theorem pass_reset_cons {r : PortIn} (hr : r.rst = true) (ps : List PortIn) (s : State) :
    pass (r :: ps) s = pass ps (resetCore s) := by
  have hport : State.port { s with input := r :: ps } = r := rfl
  have hstep : step { s with input := r :: ps } = .next (consumeInput (resetCore { s with input := r :: ps })) := by
    rw [step_eq, hport, if_pos hr]
  rw [pass_cons hstep]
  rfl

/-- The seventh bit after six ones is a FLAG's or an ABORT's (41_classifier.md R122, R123). -/
theorem classify_seventh (b : Bool) :
    classify (shiftWindow (BitVec.ofNat 8 (2 ^ 6 - 1)) b) = if b then .abort else .flag := by
  cases b <;> decide

/-- The one event of a seventh bit from RESET on: the ring holds the seven positions alone, so `Hist(7)` is the first
of them (20_memory.md R55). -/
theorem pass_seventh {qs : List Position} {first : Position} {s : State} {p : PortIn} (hp : p.isSample = true)
    (h : OnesSinceReset (qs ++ [first]) s) (hlen : qs.length = 5) :
    (pass [p] s).2 = [⟨if selectBit p then .abort else .flag, first, p.pos, 0, 0, false, false⟩] := by
  obtain ⟨hs, hsearch, hsr, hidle, hring⟩ := h.setInput [p]
  have hsix : (qs ++ [first]).length = 6 := by simp [hlen]
  rw [hsix] at hsr hidle
  obtain ⟨-, hout, -⟩ := stepCore_of_searching hs hsearch (by omega) (hsr ▸ classify_seventh _)
  have hpush := ringHolds_ringPush hring p.pos
  have hfirst : hist 7 (ringPush p.pos { s with input := [p] }) = first := by
    simpa [hlen, eq_comm] using hpush.getElem?_min (by simp) 7
  have hport : State.port { s with input := [p] } = p := rfl
  rw [pass_cons (step_sample hp), consumeInput_out, hout, hport]
  cases selectBit p <;> simp [searchingEvents, flagEvent, abortEvent, hfirst, pass]

/-- Settles O43: the last bit's class after six ones; the ring holds the seven positions alone, so `Hist(7)` is the
first. -/
theorem sevenBitsAfterReset : Obligations.SevenBitsAfterReset := by
  intro s r ps b hr hps hbits
  obtain ⟨ones, last, rfl, hones, hlast⟩ :=
    List.map_eq_append_iff.mp (show ps.map selectBit = List.replicate 6 true ++ [b] from hbits)
  obtain ⟨q, rfl, rfl⟩ := List.map_eq_singleton_iff.mp hlast
  have hlen : ones.length = 6 := by simpa using congrArg List.length hones
  obtain ⟨p, ps, rfl⟩ : ∃ p ps, ones = p :: ps := List.exists_cons_of_length_eq_add_one hlen
  have hones' : ∀ x ∈ p :: ps, x.isSample = true ∧ selectBit x = true := fun x hx =>
    ⟨hps x (List.mem_append_left _ hx), List.eq_of_mem_replicate (hones ▸ List.mem_map_of_mem hx)⟩
  obtain ⟨t, ht, e⟩ := pass_onesSinceReset [q] (resetCore_onesSinceReset s) hones' (by simp [hlen])
  rw [List.append_nil, List.map_cons, List.reverse_cons] at ht
  rw [pass_reset_cons hr, e, pass_seventh (hps q (by simp)) ht (by simpa using hlen)]
  simp [List.getLast?_cons]

end Sys2Proof.Machine

/-!
PROOFS of the family 30_encoding.md: the decoders against the encoder, the row a window runs, a cycle's dependence on
its bundle, the events of a cycle, and the frame that is sent against the frame that is decoded.
-/

namespace Sys2Proof.Machine

/-! ## Decode and encode (O2, O3) -/

/-- The row a format's decoder reads from a word that fits it. -/
def decodeRow (f : Format) (fbufLen : Nat) (w : BitVec 8) : Instr :=
  match f with
  | .win8 => decodeWin8 w
  | .ctrl2 => decodeCtrl2 (w.setWidth 2)
  | .act3 => decodeAct3 fbufLen (w.setWidth 3)
  | .bit1 => decodeBit1 (w.setWidth 1)

theorem decode_of_fits {f : Format} {w : BitVec 8} (n : Nat) (h : w.toNat < 2 ^ f.width) :
    decode f n w = .ok (decodeRow f n w) := by
  cases f <;> exact if_pos h

theorem decode_eq_ok_iff {f : Format} {n : Nat} {w : BitVec 8} {i : Instr} :
    decode f n w = .ok i ↔ w.toNat < 2 ^ f.width ∧ decodeRow f n w = i := by
  by_cases h : w.toNat < 2 ^ f.width
  · simp [decode_of_fits n h, h]
  · simp [decode, h]

/-- Every row's word fits its format (30_encoding.md R71, R73, R78). -/
theorem encode_fits (i : Instr) : (encode i).toNat < 2 ^ i.format.width := by
  cases i
  case flag => exact Laws.Fits.flag
  case abort => exact Laws.Fits.abort
  case stuffed hi => exact Laws.Fits.stuffed hi
  case data w => exact Laws.Fits.data w
  case reset v => exact Laws.Fits.reset v
  case step => exact Laws.Fits.step
  case hold => exact Laws.Fits.hold
  case flagOpen => exact Laws.Fits.flagOpen
  case flagCloseOpen => exact Laws.Fits.flagCloseOpen
  case flagResync => exact Laws.Fits.flagResync
  case abortDiscard fs => exact Laws.Fits.abortDiscard fs
  case stuffedIgnore => exact Laws.Fits.stuffedIgnore
  case stuffedDiscard => exact Laws.Fits.stuffedDiscard
  case dataIgnore => exact Laws.Fits.dataIgnore
  case dataFold => exact Laws.Fits.dataFold
  case idleOne => exact Laws.Fits.idleOne
  case idleZero => exact Laws.Fits.idleZero

/-- The cases of `Classify`, each with what it says of the window (41_classifier.md R121 to R125). -/
theorem classify_cases (w : BitVec 8) :
    (classify w = .flag ∧ w = 0x7E#8) ∨ (classify w = .abort ∧ w = 0x7F#8) ∨
      (classify w = .stuffed ∧ w ≠ 0x7E#8 ∧ w &&& 0x3F#8 = 0x3E#8) ∨
      (classify w = .data (w.getLsbD 0) ∧ (Instr.data w).wellFormed = true) := by
  by_cases hflag : w = 0x7E#8
  · exact .inl ⟨if_pos hflag, hflag⟩
  by_cases habort : w = 0x7F#8
  · exact .inr (.inl ⟨by simp [classify, habort], habort⟩)
  by_cases hstuffed : w &&& 0x3F#8 = 0x3E#8
  · exact .inr (.inr (.inl ⟨by simp [classify, hflag, habort, hstuffed], hflag, hstuffed⟩))
  · exact .inr (.inr (.inr (by simp [classify, Instr.wellFormed, hflag, habort, hstuffed])))

theorem decodeWin8_data {w : BitVec 8} (h : (Instr.data w).wellFormed = true) : decodeWin8 w = .data w := by
  obtain ⟨-, rfl⟩ | ⟨-, rfl⟩ | ⟨-, -, hlow⟩ | ⟨hc, -⟩ := classify_cases w
  · cases h
  · cases h
  · simp [Instr.wellFormed, hlow] at h
  · simp [decodeWin8, hc]

/-- A STUFFED window that is not FLAG's keeps its two high bits (30_encoding.md R74). -/
theorem decodeWin8_stuffed :
    ∀ hi : BitVec 2, (Instr.stuffed hi).wellFormed = true → decodeWin8 (hi ++ 0b111110#6) = .stuffed hi := by
  decide

/-- Settles O2: the word fits its format, and the format's decoder reads the row back from it. Only the window rows
with an operand and the two rows of one action code need their hypotheses. -/
theorem decodeInvertsEncode : Obligations.DecodeInvertsEncode := by
  intro i n hwf hadm
  refine decode_eq_ok_iff.mpr ⟨encode_fits i, ?_⟩
  cases i
  case stuffed hi => exact decodeWin8_stuffed hi hwf
  case data w => exact decodeWin8_data hwf
  case reset v => cases v <;> rfl
  case abortDiscard fs => cases fs <;> rfl
  case flagCloseOpen => exact if_pos (of_decide_eq_true hadm)
  case flagResync => exact if_neg (Nat.not_le.mpr (of_decide_eq_true hadm))
  all_goals rfl

/-- `i` is a row of format `f` that is selected at buffer length `n` and whose word is `w`. -/
structure RowOfWord (f : Format) (n : Nat) (w : BitVec 8) (i : Instr) : Prop where
  format : i.format = f
  wellFormed : i.wellFormed = true
  admits : i.admits n = true
  word : encode i = w

/-- The low six bits of a STUFFED window are fixed, so its two high bits give the whole window back. -/
theorem extractHigh_append_of_stuffed :
    ∀ w : BitVec 8, w &&& 0x3F#8 = 0x3E#8 → w.extractLsb' 6 2 ++ 0b111110#6 = w := by
  decide +kernel

theorem decodeWin8_rowOfWord (n : Nat) (w : BitVec 8) : RowOfWord .win8 n w (decodeWin8 w) := by
  obtain ⟨hc, rfl⟩ | ⟨hc, rfl⟩ | ⟨hc, hflag, hlow⟩ | ⟨hc, hwf⟩ := classify_cases w
  · exact ⟨rfl, rfl, rfl, rfl⟩
  · exact ⟨rfl, rfl, rfl, rfl⟩
  · have hword := extractHigh_append_of_stuffed w hlow
    have hhi : w.extractLsb' 6 2 ≠ 0b01#2 := fun h => hflag (by rw [← hword, h]; rfl)
    simp only [decodeWin8, hc]
    exact ⟨rfl, bne_iff_ne.mpr hhi, rfl, hword⟩
  · rw [decodeWin8_data hwf]
    exact ⟨rfl, hwf, rfl, rfl⟩

theorem decodeCtrl2_rowOfWord (n : Nat) {v : BitVec 2} {w : BitVec 8} (hw : v.setWidth 8 = w) :
    RowOfWord .ctrl2 n w (decodeCtrl2 v) := by
  have hrow : ∀ v : BitVec 2, (decodeCtrl2 v).format = .ctrl2 ∧ (decodeCtrl2 v).wellFormed = true ∧
      encode (decodeCtrl2 v) = v.setWidth 8 := by decide
  have hadmits : (decodeCtrl2 v).admits n = true := by
    unfold decodeCtrl2
    split_ifs <;> rfl
  obtain ⟨hformat, hwf, hword⟩ := hrow v
  exact ⟨hformat, hwf, hadmits, hword.trans hw⟩

theorem decodeAct3_rowOfWord (n : Nat) {v : BitVec 3} {w : BitVec 8} (hw : v.setWidth 8 = w) :
    RowOfWord .act3 n w (decodeAct3 n v) := by
  have hrow : ∀ v : BitVec 3, (decodeAct3 n v).format = .act3 ∧ (decodeAct3 n v).wellFormed = true ∧
      encode (decodeAct3 n v) = v.setWidth 8 := by
    by_cases h : Config.closeMin ≤ n <;> simp only [decodeAct3, h, if_true, if_false] <;> decide
  have hadmits : (decodeAct3 n v).admits n = true := by
    unfold decodeAct3
    split_ifs with _ _ hclose
    · rfl
    · exact decide_eq_true hclose
    · exact decide_eq_true (Nat.not_le.mp hclose)
    all_goals rfl
  obtain ⟨hformat, hwf, hword⟩ := hrow v
  exact ⟨hformat, hwf, hadmits, hword.trans hw⟩

theorem decodeBit1_rowOfWord (n : Nat) {v : BitVec 1} {w : BitVec 8} (hw : v.setWidth 8 = w) :
    RowOfWord .bit1 n w (decodeBit1 v) := by
  have hrow : ∀ v : BitVec 1, (decodeBit1 v).format = .bit1 ∧ (decodeBit1 v).wellFormed = true ∧
      encode (decodeBit1 v) = v.setWidth 8 := by decide
  have hadmits : (decodeBit1 v).admits n = true := by
    unfold decodeBit1
    split_ifs <;> rfl
  obtain ⟨hformat, hwf, hword⟩ := hrow v
  exact ⟨hformat, hwf, hadmits, hword.trans hw⟩

/-- A word that fits a narrow format is the narrow word, zero-extended. -/
theorem setWidth_setWidth_of_fits {k : Nat} {w : BitVec 8} (h : w.toNat < 2 ^ k) : (w.setWidth k).setWidth 8 = w := by
  apply BitVec.eq_of_toNat_eq
  rw [BitVec.toNat_setWidth, BitVec.toNat_setWidth, Nat.mod_eq_of_lt h, Nat.mod_eq_of_lt w.isLt]

theorem decodeRow_rowOfWord {f : Format} {w : BitVec 8} (n : Nat) (h : w.toNat < 2 ^ f.width) :
    RowOfWord f n w (decodeRow f n w) := by
  cases f
  case win8 => exact decodeWin8_rowOfWord n w
  case ctrl2 => exact decodeCtrl2_rowOfWord n (setWidth_setWidth_of_fits h)
  case act3 => exact decodeAct3_rowOfWord n (setWidth_setWidth_of_fits h)
  case bit1 => exact decodeBit1_rowOfWord n (setWidth_setWidth_of_fits h)

/-- Settles O3: what each decoder reads is a row of its word. -/
theorem decodedRowHasThatWord : Obligations.DecodedRowHasThatWord := by
  intro f n w i h
  obtain ⟨hfits, rfl⟩ := decode_eq_ok_iff.mp h
  obtain ⟨hformat, hwf, hadmits, hword⟩ := decodeRow_rowOfWord n hfits
  exact ⟨hformat, hwf, hadmits, hword⟩

/-! ## Every word has a row and every row an effect (O4) -/

/-- No row's meaning answers a fault or a refusal. -/
theorem exec_answers (i : Instr) (s : State) : ∃ t, exec i s = .next t := by
  cases i <;> exact ⟨_, rfl⟩

/-- Settles O4: a decoder rejects a word only for its width. -/
theorem noReservedEncoding : Obligations.NoReservedEncoding :=
  fun _ n _ h => ⟨_, decode_of_fits n h, exec_answers _⟩

/-! ## The row a window runs (O8) -/

theorem classify_eq_data {w : BitVec 8} {b : Bool} (h : classify w = .data b) : b = w.getLsbD 0 := by
  obtain ⟨hc, -⟩ | ⟨hc, -⟩ | ⟨hc, -⟩ | ⟨hc, -⟩ := classify_cases w
  case inr.inr.inr => exact BitClass.data.inj (h.symm.trans hc)
  all_goals simp [hc] at h

/-- The row a window decodes to is the framer's step on the window's class (43_framer.md R174). -/
theorem exec_decodeWin8 (w : BitVec 8) (s : State) : exec (decodeWin8 w) s = .next (framerStep (classify w) s) := by
  cases hc : classify w <;> simp only [decodeWin8, hc]
  case data b => rw [classify_eq_data hc]; rfl
  all_goals rfl

/-- The row the action word of a class and the framing state decodes to is the framer's step on that class, if a DATA
class carries the current bit (30_encoding.md R78, 43_framer.md R174). -/
theorem exec_decode_actWord {c : BitClass} {s : State} (hbit : ∀ b, c = .data b → b = s.currentBit) :
    ∃ i, decode .act3 s.fbuf.length (actWord c s.fstate) = .ok i ∧ exec i s = .next (framerStep c s) := by
  obtain ⟨rfl, hf, e⟩ | ⟨rfl, hf, hlen, e⟩ | ⟨rfl, hf, hlen, e⟩ | ⟨rfl, e⟩ | ⟨rfl, e⟩ | ⟨b, rfl, hf, e⟩ |
    ⟨b, rfl, hf, e⟩ := framerStep_cases c s
  · exact ⟨.flagOpen, by rw [hf]; rfl, by rw [e]; rfl⟩
  · exact ⟨.flagCloseOpen, by rw [hf]; exact congrArg Except.ok (if_pos hlen), by rw [e]; rfl⟩
  · exact ⟨.flagResync, by rw [hf]; exact congrArg Except.ok (if_neg (Nat.not_le.mpr hlen)), by rw [e]; rfl⟩
  · exact ⟨.abortDiscard s.fstate, by cases s.fstate <;> rfl, by rw [e]; rfl⟩
  · cases hf : s.fstate
    case searching => exact ⟨.stuffedIgnore, rfl, by rw [e]; rfl⟩
    case frameActive => exact ⟨.stuffedDiscard, rfl, by rw [e]; rfl⟩
  · exact ⟨.dataIgnore, by rw [hf]; cases b <;> rfl, by rw [e]; rfl⟩
  · exact ⟨.dataFold, by rw [hf]; cases b <;> rfl, by rw [e, hbit b rfl]; rfl⟩

/-- Settles O8: both rows are the framer's step on the class of the shift register. -/
theorem windowRowRunsItsAction : Obligations.WindowRowRunsItsAction := by
  intro s iw hw
  obtain ⟨-, rfl⟩ := decode_eq_ok_iff.mp hw
  obtain ⟨ia, hdecode, hexec⟩ := exec_decode_actWord (s := s) fun b h => classify_eq_data h
  exact ⟨ia, hdecode, (exec_decodeWin8 s.sr s).trans hexec.symm⟩

/-! ## The control word and the row of a cycle (O5, O6, O1) -/

/-- The control word of the port names the row that the cycle fetches, whatever the buffer's length. -/
theorem decode_port_ctrl (s : State) (n : Nat) : decode .ctrl2 n s.port.ctrl = .ok (fetch s) := by
  refine decode_of_fits n ?_
  rw [PortIn.ctrl]
  cases s.port.rst <;> cases s.port.inValid <;> decide

/-- Settles O5: the row fetched from a state with that bundle on its port (`fetch_eq`). -/
theorem controlWordSelectsRow : Obligations.ControlWordSelectsRow := by
  intro p n
  have h := decode_port_ctrl { State.reset with input := [p] } n
  rw [fetch_eq] at h
  exact h

/-- Settles O6: the row decoded is the one fetched, and no row writes the input. -/
theorem stepRunsDecodedRow : Obligations.StepRunsDecodedRow := by
  intro s t i hdecode hexec
  obtain ⟨-, hwf, -, -⟩ := decodedRowHasThatWord _ _ _ _ hdecode
  obtain ⟨-, -, -, -, -, -, -, -, -, hinput, -⟩ := fieldsWrittenOnlyByTheirRows i s t hexec
  rw [decode_port_ctrl] at hdecode
  obtain rfl := Except.ok.inj hdecode
  refine ⟨hwf, ?_⟩
  rw [step, hexec, ← hinput]
  rfl

/-- Settles O1: the twelve words are read by the decoders' own tests. -/
theorem tableWordsDecode : Obligations.TableWordsDecode := by
  unfold Obligations.TableWordsDecode
  decide

/-! ## A cycle sees its own bundle alone (O10) -/

/-- The framer does not see the input port (43_framer.md R174). -/
theorem framerStep_setInput (c : BitClass) (s : State) (l : List PortIn) :
    framerStep c { s with input := l } = { framerStep c s with input := l } := by
  cases c
  case flag => simp only [framerStep]; split_ifs <;> rfl
  case abort => rfl
  case stuffed => rfl
  case data b =>
    simp only [framerStep, dataFold, completeByte, fbufAppend, foldIn]
    split_ifs <;> rfl

theorem idleUpdate_setInput (b : Bool) (s : State) (l : List PortIn) :
    idleUpdate b { s with input := l } = { idleUpdate b s with input := l } := by
  simp only [idleUpdate, idleOne]
  split_ifs <;> rfl

theorem finishStep_setInput (b : Bool) (s : State) (l : List PortIn) :
    finishStep b { s with input := l } = { finishStep b s with input := l } := by
  cases hs : s.fault <;> simp only [finishStep, hs]
  rw [← hs, idleUpdate_setInput]

/-- A STEP sees of the input port only its bundle's position and selected bit (44_step.md R201). -/
theorem stepCore_setInput {s : State} {l : List PortIn} (hpos : (State.port { s with input := l }).pos = s.port.pos)
    (hbit : selectBit (State.port { s with input := l }) = selectBit s.port) :
    stepCore { s with input := l } = { stepCore s with input := l } := by
  have haccept : acceptBit (State.port { s with input := l }) (clearEvents { s with input := l }) =
      { acceptBit s.port (clearEvents s) with input := l } := by
    rw [acceptBit, hpos, hbit]
    rfl
  cases hs : s.fault with
  | none =>
    simp only [stepCore, hs]
    rw [← hs, haccept, framerStep_setInput, hbit, finishStep_setInput]
  | some f =>
    simp only [stepCore, hs]
    rw [← hs]
    rfl

/-- A cycle sees of the input port only its bundle, and of that the control bits, the position and the selected bit. -/
theorem step_setInput {s t : State} {l : List PortIn} (h : step s = .next t)
    (hrst : (State.port { s with input := l }).rst = s.port.rst)
    (hvalid : (State.port { s with input := l }).inValid = s.port.inValid)
    (hpos : (State.port { s with input := l }).pos = s.port.pos)
    (hbit : selectBit (State.port { s with input := l }) = selectBit s.port) :
    step { s with input := l } = .next { t with input := l.tail } := by
  rw [step_eq, hrst, hvalid, stepCore_setInput hpos hbit]
  obtain ⟨hr, rfl⟩ | ⟨hr, hv, rfl⟩ | ⟨hr, hv, rfl⟩ := step_cases h
  · rw [if_pos hr]; rfl
  · rw [if_neg (by simp [hr]), if_pos hv]; rfl
  · rw [if_neg (by simp [hr]), if_neg (by simp [hv])]; rfl

/-- The level of an absent line is not selected (30_encoding.md R72, 44_step.md R201). -/
theorem selectBit_absent (p : PortIn) (x y : Bool) :
    selectBit { p with dSec := if p.dSecPresent then p.dSec else x, enSec := if p.enSecPresent then p.enSec else y } =
      selectBit p := by
  cases hd : p.dSecPresent <;> cases he : p.enSecPresent <;> simp [selectBit, hd, he]

theorem step_answers (s : State) : ∃ t, step s = .next t := ⟨_, step_eq s⟩

/-- Two bundles alike in what a cycle sees make the same cycle. -/
theorem step_bundle_congr {p q : PortIn} (s : State) (ps : List PortIn) (hrst : q.rst = p.rst)
    (hvalid : q.inValid = p.inValid) (hpos : q.pos = p.pos) (hbit : selectBit q = selectBit p) :
    step { s with input := q :: ps } = step { s with input := p :: ps } := by
  obtain ⟨t, ht⟩ := step_answers { s with input := p :: ps }
  have hq : step { s with input := q :: ps } = .next { t with input := ps } :=
    step_setInput (s := { s with input := p :: ps }) (l := q :: ps) ht hrst hvalid hpos hbit
  rw [hq, ht, ← show t.input = ps from step_input ht]

/-- Settles O10: the changed bundle selects the same bit (`selectBit_absent`). -/
theorem absentLinesIgnored : Obligations.AbsentLinesIgnored :=
  fun s p ps x y => step_bundle_congr s ps rfl rfl rfl (selectBit_absent p x y)

/-! ## The events of a cycle (O36, O37) -/

/-- What the framer's sub-step emits, by class (43_framer.md R161 to R172); an overflow delivers nothing. -/
theorem framerStep_out_cases (c : BitClass) {s : State} (hout : s.out = []) :
    (framerStep c s).out = [] ∨ (c = .flag ∧ (framerStep c s).out = [flagEvent s]) ∨
      (c = .flag ∧ 2 ≤ s.fbuf.length ∧ (framerStep c s).out = [flagEvent s, frameResultEvent s]) ∨
      (c = .abort ∧ (framerStep c s).out = [abortEvent s]) ∨
      (s.fstate = .frameActive ∧ ∃ b, (framerStep c s).out = [byteEvent (foldBit s.acc s.cnt b) (foldIn b s)]) := by
  obtain ⟨hc, -, e⟩ | ⟨hc, -, hlen, e⟩ | ⟨hc, -, -, e⟩ | ⟨hc, e⟩ | ⟨-, e⟩ | ⟨b, -, -, e⟩ | ⟨b, -, hopen, e⟩ :=
    framerStep_cases c s
  · exact .inr (.inl ⟨hc, by simp [e, flagOpen, hout]⟩)
  · exact .inr (.inr (.inl ⟨hc, hlen, by simp [e, flagCloseOpen_eq, hout]⟩))
  · exact .inr (.inl ⟨hc, by simp [e, flagResync, hout]⟩)
  · exact .inr (.inr (.inr (.inl ⟨hc, by simp [e, hout]⟩)))
  · exact .inl (by rw [e, hout])
  · exact .inl (by rw [e, hout])
  · obtain ⟨-, e'⟩ | ⟨-, e'⟩ := dataFold_cases b s
    · exact .inl (by simp [e, e', hout])
    · obtain ⟨-, e''⟩ | ⟨-, e''⟩ := completeByte_cases (foldIn b s)
      · exact .inl (by simp [e, e', e''])
      · exact .inr (.inr (.inr (.inr ⟨hopen, b, by simp [e, e', e'', hout]⟩)))

/-- What a cycle emits: nothing, or in a STEP what the framer's sub-step emits, and behind it the IDLE of the fifteenth
one-bit (44_step.md R202, 42_idle.md R140). -/
theorem step_out_cases {s t : State} (h : step s = .next t) :
    t.out = [] ∨ (s.fault = none ∧ t.out = (framed s).out) ∨
      (s.fault = none ∧ selectBit s.port = true ∧ s.idleCnt = 14 ∧
        t.out = (framed s).out ++ [idleEvent (framed s)]) := by
  obtain ⟨-, rfl⟩ | ⟨-, -, rfl⟩ | ⟨-, -, rfl⟩ := step_cases h
  · exact .inl rfl
  · obtain ⟨-, e⟩ | ⟨hs, e⟩ := stepCore_cases s
    · exact .inl (by simp [e])
    change stepCore s = finishStep (selectBit s.port) (framed s) at e
    obtain ⟨-, hidle, -⟩ := framed_frame s
    refine .inr ?_
    rw [consumeInput_out, e, ← hidle]
    obtain ⟨-, e'⟩ | ⟨-, e'⟩ := finishStep_cases (selectBit s.port) (framed s)
    · rw [e']
      obtain ⟨-, e''⟩ | ⟨-, -, e''⟩ | ⟨hb, hcnt, e''⟩ | ⟨-, -, e''⟩ := idleUpdate_cases (selectBit s.port) (framed s)
      case inr.inr.inl => exact .inr ⟨hs, hb, hcnt, by rw [e'']⟩
      all_goals exact .inl ⟨hs, by rw [e'']⟩
    · exact .inl ⟨hs, by rw [e']⟩
  · exact .inl rfl

theorem trailingOnes_of_classify_eq_abort {w : BitVec 8} (h : classify w = .abort) : trailingOnes w = 7 := by
  obtain ⟨hc, -⟩ | ⟨-, rfl⟩ | ⟨hc, -⟩ | ⟨hc, -⟩ := classify_cases w
  case inr.inl => rfl
  all_goals simp [hc] at h

/-- At the fifteenth one-bit of a run the framer emits nothing: the window is neither FLAG's nor ABORT's, and no frame
is open (10_state.md R33 items 3 and 4). -/
theorem framed_out_of_idle {s : State} (h : FramingInv s) (hbit : selectBit s.port = true) (hcnt : s.idleCnt = 14) :
    (framed s).out = [] := by
  have hrun : trailingOnes (shiftWindow s.sr (selectBit s.port)) = 8 := by
    rw [trailingOnes_shiftWindow, hbit, ← h.idleIsRun, hcnt]
    rfl
  obtain hnone | ⟨hc, -⟩ | ⟨hc, -, -⟩ | ⟨hc, -⟩ | ⟨hopen, -⟩ :=
    framerStep_out_cases (classify (shiftWindow s.sr (selectBit s.port)))
      (s := acceptBit s.port (clearEvents s)) rfl
  · exact hnone
  · simp [trailingOnes_of_classify_eq_flag hc] at hrun
  · simp [trailingOnes_of_classify_eq_flag hc] at hrun
  · simp [trailingOnes_of_classify_eq_abort hc] at hrun
  · exact absurd (h.activeNotIdle hopen) (by simp [hcnt])

/-- Settles O36: the framer emits at most a FLAG and its result, and with an IDLE nothing (`framed_out_of_idle`). -/
theorem eventsPerCycle : Obligations.EventsPerCycle := by
  intro s t hinv hstep
  obtain hnone | ⟨-, e⟩ | ⟨hs, hbit, hcnt, e⟩ := step_out_cases hstep
  · exact .inl hnone
  · obtain e' | ⟨-, e'⟩ | ⟨-, -, e'⟩ | ⟨-, e'⟩ | ⟨-, b, e'⟩ :=
      framerStep_out_cases (classify (shiftWindow s.sr (selectBit s.port)))
        (s := acceptBit s.port (clearEvents s)) rfl
    · exact .inl (e.trans e')
    · exact .inr (.inl ⟨_, e.trans e', by simp [flagEvent]⟩)
    · exact .inr (.inr ⟨_, _, e.trans e', rfl, rfl⟩)
    · exact .inr (.inl ⟨_, e.trans e', by simp [abortEvent]⟩)
    · exact .inr (.inl ⟨_, e.trans e', by simp [byteEvent]⟩)
  · rw [framed_out_of_idle (hinv.framing hs) hbit hcnt, List.nil_append] at e
    exact .inr (.inl ⟨_, e, by simp [idleEvent]⟩)

/-- The fields an event's kind does not use are 0, and a FRAME_RESULT has one of its three combinations
(30_encoding.md R81, R82). -/
def Event.FieldsOfKind (e : Event) : Prop :=
  (e.kind ≠ .byte → e.value = 0) ∧
  (e.kind ≠ .frameResult → e.count = 0 ∧ e.crcValid = false ∧ e.tooShort = false) ∧
  (e.kind = .frameResult →
    (2 ≤ e.count ∧ e.count ≤ 5 ∧ e.crcValid = false ∧ e.tooShort = true) ∨ (6 ≤ e.count ∧ e.tooShort = false))

theorem flagEvent_fieldsOfKind (s : State) : (flagEvent s).FieldsOfKind := by
  simp [Event.FieldsOfKind, flagEvent]

theorem abortEvent_fieldsOfKind (s : State) : (abortEvent s).FieldsOfKind := by
  simp [Event.FieldsOfKind, abortEvent]

theorem idleEvent_fieldsOfKind (s : State) : (idleEvent s).FieldsOfKind := by
  simp [Event.FieldsOfKind, idleEvent]

theorem byteEvent_fieldsOfKind (v : Byte) (s : State) : (byteEvent v s).FieldsOfKind := by
  simp [Event.FieldsOfKind, byteEvent]

/-- A frame is closed with two bytes or more, and is too short under six (43_framer.md R164, R181, R182). -/
theorem frameResultEvent_fieldsOfKind {s : State} (h : 2 ≤ s.fbuf.length) : (frameResultEvent s).FieldsOfKind := by
  refine ⟨fun _ => rfl, fun hk => absurd rfl hk, fun _ => ?_⟩
  by_cases hshort : s.fbuf.length < 6
  · exact .inl ⟨h, Nat.le_of_lt_succ hshort, by simp [frameResultEvent, crcValid, tooShort, Config.minFrame, hshort],
      decide_eq_true hshort⟩
  · exact .inr ⟨Nat.le_of_not_lt hshort, decide_eq_false hshort⟩

theorem framerStep_out_fieldsOfKind (c : BitClass) {s : State} (hout : s.out = []) :
    ∀ e ∈ (framerStep c s).out, e.FieldsOfKind := by
  obtain e | ⟨-, e⟩ | ⟨-, hlen, e⟩ | ⟨-, e⟩ | ⟨-, b, e⟩ := framerStep_out_cases c hout <;> rw [e]
  · simp
  · simp [flagEvent_fieldsOfKind]
  · simp [flagEvent_fieldsOfKind, frameResultEvent_fieldsOfKind hlen]
  · simp [abortEvent_fieldsOfKind]
  · simp [byteEvent_fieldsOfKind]

/-- Settles O37: every event comes from the framer's sub-step or is the IDLE. -/
theorem eventFieldCombinations : Obligations.EventFieldCombinations := by
  intro s t e hstep he
  have hframed : ∀ e ∈ (framed s).out, e.FieldsOfKind :=
    framerStep_out_fieldsOfKind _ (s := acceptBit s.port (clearEvents s)) rfl
  obtain h | ⟨-, h⟩ | ⟨-, -, -, h⟩ := step_out_cases hstep <;> rw [h] at he
  · cases he
  · exact hframed e he
  · obtain he | he := List.mem_append.mp he
    · exact hframed e he
    · exact List.mem_singleton.mp he ▸ idleEvent_fieldsOfKind _

/-! ## Passes in sequence -/

/-- A pass on two lists of bundles is the pass on the first, then the pass on the second (44_step.md R209, R210). -/
theorem pass_append (ps qs : List PortIn) (s : State) :
    pass (ps ++ qs) s = ((pass qs (pass ps s).1).1, (pass ps s).2 ++ (pass qs (pass ps s).1).2) := by
  induction ps generalizing s with
  | nil => rfl
  | cons p ps ih =>
    obtain ⟨t, ht⟩ := step_answers { s with input := p :: ps }
    have hlong : step { s with input := p :: (ps ++ qs) } = .next { t with input := ps ++ qs } :=
      step_setInput (s := { s with input := p :: ps }) (l := p :: (ps ++ qs)) ht rfl rfl rfl rfl
    have hsame : pass (ps ++ qs) { t with input := ps ++ qs } = pass (ps ++ qs) t := rfl
    rw [List.cons_append, pass_cons hlong, pass_cons ht, hsame, ih, List.append_assoc]

theorem pass_sample {p : PortIn} (hp : p.isSample = true) (s : State) :
    pass [p] s = ({ stepCore { s with input := [p] } with input := [] }, (stepCore { s with input := [p] }).out) := by
  rw [pass_cons (step_sample hp), pass, List.length_nil, cycles_zero, List.append_nil]
  rfl

/-- A pass of samples with the accepted bits `bits` takes `P` to `Q` and emits, positions aside, the events `es`. -/
def Decodes (P : State → Prop) (bits : List Bool) (es : List Event) (Q : State → Prop) : Prop :=
  ∀ (s : State) (ps : List PortIn), P s → (∀ p ∈ ps, p.isSample = true) → ps.map selectBit = bits →
    (pass ps s).2.map Event.content = es ∧ Q (pass ps s).1

theorem Decodes.append {P Q R : State → Prop} {bits bits' : List Bool} {es es' : List Event}
    (h : Decodes P bits es Q) (h' : Decodes Q bits' es' R) : Decodes P (bits ++ bits') (es ++ es') R := by
  intro s ps hP hps hbits
  obtain ⟨qs, qs', rfl, hqs, hqs'⟩ := List.map_eq_append_iff.mp hbits
  obtain ⟨hes, hQ⟩ := h s qs hP (fun p hp => hps p (List.mem_append_left _ hp)) hqs
  obtain ⟨hes', hR⟩ := h' _ qs' hQ (fun p hp => hps p (List.mem_append_right _ hp)) hqs'
  rw [pass_append, List.map_append, hes, hes']
  exact ⟨rfl, hR⟩

theorem Decodes.weaken {P P' Q : State → Prop} {bits : List Bool} {es : List Event} (h : Decodes P bits es Q)
    (hP : ∀ s, P' s → P s) : Decodes P' bits es Q :=
  fun s ps hs => h s ps (hP s hs)

theorem decodes_nil {P : State → Prop} (hP : ∀ s l, P s → P { s with input := l }) : Decodes P [] [] P := by
  intro s ps hs _ hbits
  obtain rfl := List.map_eq_nil_iff.mp hbits
  exact ⟨rfl, hP s [] hs⟩

/-- The rule for one bit: what a STEP does, for conditions that do not see the input port. -/
theorem decodes_bit {P Q : State → Prop} {b : Bool} {es : List Event} (hP : ∀ s l, P s → P { s with input := l })
    (hQ : ∀ s l, Q s → Q { s with input := l })
    (hstep : ∀ s, P s → selectBit s.port = b → (stepCore s).out.map Event.content = es ∧ Q (stepCore s)) :
    Decodes P [b] es Q := by
  intro s ps hs hps hbits
  obtain ⟨p, rfl, hbit⟩ := List.map_eq_singleton_iff.mp hbits
  obtain ⟨hes, hq⟩ := hstep { s with input := [p] } (hP s [p] hs) hbit
  rw [pass_sample (hps p (List.mem_singleton_self p))]
  exact ⟨hes, hQ _ _ hq⟩

/-! ## A STEP in an open frame -/

/-- The class of the next bit is decided by that bit and the run of ones before it (41_classifier.md R126). -/
theorem classify_shiftWindow : ∀ (w : BitVec 8) (b : Bool),
    classify (shiftWindow w b) =
      if b then (if trailingOnes w = 6 then .abort else .data true)
      else if trailingOnes w ≤ 4 then .data false
      else if trailingOnes w = 6 then .flag
      else .stuffed := by
  decide +kernel

/-- With no IDLE to come, a STEP that does not fault is the framer's sub-step and the count of the bit. -/
theorem stepCore_of_idle_lt {s : State} (hs : s.fault = none) (hf : (framed s).fault = none)
    (hidle : s.idleCnt.toNat < 14) :
    ∃ n, stepCore s = { framed s with idleCnt := n } ∧
      n.toNat = if selectBit s.port then s.idleCnt.toNat + 1 else 0 := by
  obtain ⟨h, -⟩ | ⟨-, e⟩ := stepCore_cases s
  · exact absurd hs h
  obtain ⟨-, e'⟩ | ⟨h, -⟩ := finishStep_cases (selectBit s.port) (framed s)
  · obtain ⟨-, hcnt, -⟩ := framed_frame s
    obtain ⟨n, e''⟩ := idleUpdate_of_lt (s := framed s) (selectBit s.port) (hcnt ▸ hidle)
    have hn := idleUpdate_idleCnt_toNat (selectBit s.port) (framed s)
    rw [e'', hcnt] at hn
    refine ⟨n, e.trans (e'.trans e''), ?_⟩
    rw [show n.toNat = _ from hn]
    split <;> omega
  · exact absurd hf h

/-- The FLAG event, positions aside. -/
def flagContent : Event := ⟨.flag, 0, 0, 0, 0, false, false⟩

/-- The event of a byte, positions aside. -/
def byteContent (x : Byte) : Event := ⟨.byte, 0, 0, x, 0, false, false⟩

/-- An open frame with the bytes `done` assembled and `k` bits of the byte `x` received; the eighth one moves the byte
to the buffer. -/
structure Assembling (cap : Option Nat) (done : List Byte) (x : Byte) (k : Nat) (s : State) : Prop where
  isSafe : s.safe
  active : s.fstate = .frameActive
  capacity : s.frameCap = cap
  buffered : s.fbuf = if k < 8 then done else done ++ [x]
  count : s.cnt = BitVec.ofNat 3 k
  folded : s.acc.toNat = x.toNat % 2 ^ s.cnt.toNat

/-- Folding bit `k` of a byte into its `k` low bits makes its `k + 1` low bits (20_memory.md R60). -/
theorem foldBit_low_bits {acc x : Byte} {cnt : BitVec 3} (h : acc.toNat = x.toNat % 2 ^ cnt.toNat) :
    (foldBit acc cnt (x.getLsbD cnt.toNat)).toNat = x.toNat % 2 ^ (cnt.toNat + 1) := by
  have hlt : acc.toNat < 2 ^ cnt.toNat := h ▸ Nat.mod_lt _ (Nat.two_pow_pos _)
  rw [foldBit_toNat _ hlt, h, Nat.mod_pow_succ, Nat.shiftLeft_eq, Nat.mul_comm (Bool.toNat _), ← Nat.toNat_testBit]
  rfl

section
variable {cap : Option Nat} {done : List Byte} {x : Byte} {k ones : Nat} {s : State}

/-- The next bit of `x` makes one bit more of it, and with the eighth its event (43_framer.md R172). -/
theorem dataFold_assembling (h : Assembling cap done x k s) (hk : k < 8) (hroom : k = 7 → cap ≠ some done.length) :
    Assembling cap done x (k + 1) (dataFold (x.getLsbD k) s) ∧
      (dataFold (x.getLsbD k) s).out.map Event.content =
        s.out.map Event.content ++ if k = 7 then [byteContent x] else [] := by
  obtain ⟨hs, hopen, hcap, hbuf, hcnt, hacc⟩ := h
  obtain rfl : s.cnt.toNat = k := by simp [hcnt, Nat.mod_eq_of_lt hk]
  have hfold := foldBit_low_bits hacc
  rw [if_pos hk] at hbuf
  obtain ⟨hne, e⟩ | ⟨hseven, e⟩ := dataFold_cases (x.getLsbD s.cnt.toNat) s
  · have hlt : s.cnt.toNat + 1 < 8 := by bv_omega
    have hnext : (s.cnt + 1).toNat = s.cnt.toNat + 1 := by bv_omega
    rw [e, if_neg (by omega)]
    refine ⟨⟨hs, hopen, hcap, hbuf.trans (if_pos hlt).symm, ?_, hnext ▸ hfold⟩, by simp⟩
    simp [BitVec.ofNat_add]
  · obtain ⟨hfull, -⟩ | ⟨-, e'⟩ := completeByte_cases (foldIn (x.getLsbD s.cnt.toNat) s)
    · exact absurd (hcap.symm.trans (hfull.trans (congrArg (some ·.length) hbuf))) (hroom (by rw [hseven]; rfl))
    · have hbyte : foldBit s.acc s.cnt (x.getLsbD s.cnt.toNat) = x :=
        BitVec.eq_of_toNat_eq (hfold.trans (Nat.mod_eq_of_lt (by rw [hseven]; exact x.isLt)))
      rw [e, e', if_pos (by rw [hseven]; rfl)]
      refine ⟨⟨hs, hopen, hcap, ?_, ?_, ?_⟩, ?_⟩
      · rw [foldIn_fbuf, foldIn_acc, hbuf, hbyte]
        exact (if_neg (by simp [hseven])).symm
      · simp [hseven]
      · simp [Nat.mod_one]
      · simp [hbyte, byteContent, byteEvent, Event.content]

/-- A state while a frame is received: `Assembling`, and the run of one-bits that the shift register and the idle
counter show. -/
structure Receiving (cap : Option Nat) (done : List Byte) (x : Byte) (k ones : Nat) (s : State) : Prop where
  assembling : Assembling cap done x k s
  run : trailingOnes s.sr = ones
  idle : s.idleCnt.toNat = ones

theorem Receiving.setInput (s : State) (l : List PortIn) (h : Receiving cap done x k ones s) :
    Receiving cap done x k ones { s with input := l } := by
  obtain ⟨⟨hs, hopen, hcap, hbuf, hcnt, hacc⟩, hrun, hidle⟩ := h
  exact ⟨⟨hs, hopen, hcap, hbuf, hcnt, hacc⟩, hrun, hidle⟩

theorem JustOpened.setInput (s : State) (l : List PortIn) (h : JustOpened s) : JustOpened { s with input := l } := by
  obtain ⟨hs, hopen, hbuf, hacc, hcnt, hsr, hidle⟩ := h
  exact ⟨hs, hopen, hbuf, hacc, hcnt, hsr, hidle⟩

/-- A STEP keeps what the framer's sub-step assembles; behind it the idle update counts the bit and, the run being
short of an IDLE's, emits nothing. -/
theorem stepCore_receiving (hs : s.safe) (hrun : trailingOnes s.sr = ones) (hidle : s.idleCnt.toNat = ones)
    (hones : ones ≤ 6) (hframed : Assembling cap done x k (framed s)) :
    (stepCore s).out = (framed s).out ∧
      Receiving cap done x k (if selectBit s.port then ones + 1 else 0) (stepCore s) := by
  obtain ⟨hs', hopen, hcap, hbuf, hcnt, hacc⟩ := hframed
  obtain ⟨n, e, hn⟩ := stepCore_of_idle_lt hs hs' (by omega)
  obtain ⟨hsr, -⟩ := stepCore_accepts hs
  have hrun' : trailingOnes (stepCore s).sr = if selectBit s.port then ones + 1 else 0 := by
    rw [hsr, trailingOnes_shiftWindow, hrun]
    split <;> omega
  rw [hidle] at hn
  rw [e] at hrun' ⊢
  exact ⟨rfl, ⟨hs', hopen, hcap, hbuf, hcnt, hacc⟩, hrun', hn⟩

theorem stepCore_receiving_data (h : Receiving cap done x k ones s) (hk : k < 8)
    (hroom : k = 7 → cap ≠ some done.length) (hbit : selectBit s.port = x.getLsbD k)
    (hones : ones ≤ if x.getLsbD k then 5 else 4) :
    (stepCore s).out.map Event.content = (if k = 7 then [byteContent x] else []) ∧
      Receiving cap done x (k + 1) (if x.getLsbD k then ones + 1 else 0) (stepCore s) := by
  obtain ⟨⟨hs, hopen, hcap, hbuf, hcnt, hacc⟩, hrun, hidle⟩ := h
  have hclass : classify (shiftWindow s.sr (selectBit s.port)) = .data (x.getLsbD k) := by
    rw [classify_shiftWindow, hrun, hbit]
    cases hx : x.getLsbD k <;> simp [hx] at hones ⊢ <;> omega
  have hframed : framed s = dataFold (x.getLsbD k) (acceptBit s.port (clearEvents s)) := by
    rw [framed, hclass]
    exact if_pos hopen
  obtain ⟨hasm, hout⟩ :=
    dataFold_assembling (s := acceptBit s.port (clearEvents s)) ⟨hs, hopen, hcap, hbuf, hcnt, hacc⟩ hk hroom
  rw [← hframed] at hasm hout
  obtain ⟨hout', hrec⟩ := stepCore_receiving hs hrun hidle (by split at hones <;> omega) hasm
  rw [hbit] at hrec
  exact ⟨by rw [hout', hout]; rfl, hrec⟩

theorem stepCore_receiving_stuffed (h : Receiving cap done x k 5 s) (hbit : selectBit s.port = false) :
    (stepCore s).out.map Event.content = [] ∧ Receiving cap done x k 0 (stepCore s) := by
  obtain ⟨⟨hs, hopen, hcap, hbuf, hcnt, hacc⟩, hrun, hidle⟩ := h
  have hframed : framed s = acceptBit s.port (clearEvents s) := by
    rw [framed, classify_shiftWindow, hrun, hbit]
    rfl
  obtain ⟨hout, hrec⟩ := stepCore_receiving hs hrun hidle (by decide)
    (hframed ▸ (⟨hs, hopen, hcap, hbuf, hcnt, hacc⟩ : Assembling cap done x k (acceptBit s.port (clearEvents s))))
  rw [hbit] at hrec
  exact ⟨by rw [hout, hframed]; rfl, hrec⟩

/-- The verdict of a close is the one the statements name, positions aside (43_framer.md R180 to R182). -/
theorem frameResultEvent_content (h : 2 ≤ s.fbuf.length) : [(frameResultEvent s).content] = verdictContent s.fbuf := by
  by_cases hshort : s.fbuf.length < 6
  · have hcrc : crcValid s.fbuf = false := by simp [crcValid, tooShort, Config.minFrame, hshort]
    simp [verdictContent, frameResultEvent, Event.content, hcrc, tooShort, Config.minFrame, hshort, Nat.not_lt.mpr h]
  · have hcrc : crcValid s.fbuf = crcMatches s.fbuf := by simp [crcValid, tooShort, Config.minFrame, hshort]
    simp [verdictContent, frameResultEvent, Event.content, hcrc, crcMatches, tooShort, Config.minFrame, Config.fcsLen,
      hshort, Nat.not_lt.mpr h, beq_eq_decide]

/-- FLAG in an open frame emits FLAG and the verdict on the bytes buffered (43_framer.md R164, R165). -/
theorem framerStep_flag_content (hopen : s.fstate = .frameActive) (hout : s.out = []) :
    (framerStep .flag s).out.map Event.content = flagContent :: verdictContent s.fbuf := by
  obtain ⟨-, hf, -⟩ | ⟨-, -, hlen, e⟩ | ⟨-, -, hlen, e⟩ | ⟨h, -⟩ | ⟨h, -⟩ | ⟨_, h, -⟩ | ⟨_, h, -⟩ :=
    framerStep_cases .flag s
  · simp [hopen] at hf
  · rw [e, flagCloseOpen_eq, ← frameResultEvent_content hlen]
    simp [hout, flagEvent, Event.content, flagContent]
  · simp [e, flagResync, hout, flagEvent, Event.content, flagContent, verdictContent, hlen]
  all_goals cases h

theorem stepCore_receiving_flag (h : Receiving cap done x k 6 s) (hk : k < 8) (hbit : selectBit s.port = false) :
    (stepCore s).out.map Event.content = flagContent :: verdictContent done ∧
      JustOpened (stepCore s) := by
  obtain ⟨⟨hs, hopen, -, hbuf, -, -⟩, hrun, hidle⟩ := h
  have hclass : classify (shiftWindow s.sr (selectBit s.port)) = .flag := by
    rw [classify_shiftWindow, hrun, hbit]
    rfl
  have hframed : framed s = framerStep .flag (acceptBit s.port (clearEvents s)) := by rw [framed, hclass]
  obtain ⟨es, hopens⟩ := framerStep_flag_opens (acceptBit s.port (clearEvents s))
  obtain ⟨n, e, hn⟩ := stepCore_of_idle_lt hs (by rw [hframed, hopens]; exact hs) (by omega)
  obtain ⟨hsr, -⟩ := stepCore_accepts hs
  have hcontent := framerStep_flag_content (s := acceptBit s.port (clearEvents s)) hopen rfl
  have hzero : n = 0 := BitVec.eq_of_toNat_eq (by simpa [hbit] using hn)
  rw [← hframed, show (acceptBit s.port (clearEvents s)).fbuf = done from hbuf.trans (if_pos hk)] at hcontent
  rw [e] at hsr ⊢
  refine ⟨hcontent, ?_, ?_, ?_, ?_, ?_, hsr.trans (classify_eq_flag hclass), hzero⟩
  all_goals simp only [State.safe, hframed, hopens]
  · exact hs
  all_goals rfl

end

/-! ## What is sent and what is decoded (O45) -/

section
variable {cap : Option Nat} {done : List Byte} {x : Byte} {k ones : Nat}

/-- The rule for a data bit. -/
theorem decodes_data (hk : k < 8) (hroom : k = 7 → cap ≠ some done.length)
    (hones : ones ≤ if x.getLsbD k then 5 else 4) :
    Decodes (Receiving cap done x k ones) [x.getLsbD k] (if k = 7 then [byteContent x] else [])
      (Receiving cap done x (k + 1) (if x.getLsbD k then ones + 1 else 0)) :=
  decodes_bit Receiving.setInput Receiving.setInput fun _ h hbit => stepCore_receiving_data h hk hroom hbit hones

/-- The rule for a stuffed bit. -/
theorem decodes_stuffed : Decodes (Receiving cap done x k 5) [false] [] (Receiving cap done x k 0) :=
  decodes_bit Receiving.setInput Receiving.setInput fun _ h hbit => stepCore_receiving_stuffed h hbit

/-- The rule for a flag's last bit. -/
theorem decodes_flag_end (hk : k < 8) :
    Decodes (Receiving cap done x k 6) [false] (flagContent :: verdictContent done) JustOpened :=
  decodes_bit Receiving.setInput JustOpened.setInput fun _ h hbit => stepCore_receiving_flag h hk hbit

theorem byteBits_drop (hk : k < 8) : (byteBits x).drop k = x.getLsbD k :: (byteBits x).drop (k + 1) := by
  rw [List.drop_eq_getElem_cons (by simpa [byteBits] using hk)]
  simp [byteBits]

/-- The sender leaves fewer than five one-bits in a row behind. -/
theorem stuff_run_le {run : Nat} (bs : List Bool) (h : run ≤ 4) : (stuff run bs).2 ≤ 4 := by
  induction bs generalizing run with
  | nil => exact h
  | cons b bs ih =>
    cases b
    case false => exact ih (Nat.zero_le 4)
    case true =>
      rw [stuff]
      split
      · exact ih (Nat.zero_le 4)
      · exact ih (by omega)

/-- The stuffed bits of what is left of a byte complete it. -/
theorem decodes_stuffed_bits (hk : k ≤ 8) (hones : ones ≤ 4) (hroom : cap ≠ some done.length) :
    Decodes (Receiving cap done x k ones) (stuff ones ((byteBits x).drop k)).1 (if k < 8 then [byteContent x] else [])
      (Receiving cap done x 8 (stuff ones ((byteBits x).drop k)).2) := by
  induction hk using Nat.decreasingInduction generalizing ones with
  | self =>
    have hnone : (byteBits x).drop 8 = [] := List.drop_eq_nil_of_le (by simp [byteBits])
    rw [hnone]
    exact decodes_nil Receiving.setInput
  | of_succ k hk ih =>
    have hevents : (if k < 8 then [byteContent x] else []) =
        (if k = 7 then [byteContent x] else []) ++ if k + 1 < 8 then [byteContent x] else [] := by
      by_cases hlast : k = 7
      · simp [hlast]
      · simp [hlast, hk, show k + 1 < 8 by omega]
    have hdata := decodes_data (cap := cap) (done := done) (x := x) (ones := ones) hk (fun _ => hroom)
      (by split <;> omega)
    rw [byteBits_drop hk, hevents]
    cases hx : x.getLsbD k
    case false =>
      rw [hx] at hdata
      exact hdata.append (ih (Nat.zero_le 4))
    case true =>
      rw [hx, if_pos rfl] at hdata
      rw [stuff]
      split
      case isTrue hfive =>
        rw [hfive] at hdata
        exact hdata.append (decodes_stuffed.append (ih (Nat.zero_le 4)))
      case isFalse hfive => exact hdata.append (ih (by omega))

/-- A flag's first zero and its ones so far are folded like bits of a byte 0x7E (43_framer.md R172). -/
theorem decodes_flag_start {n : Nat} (hn : n ≤ 6) (hones : ones ≤ 4) :
    Decodes (Receiving cap done 0x7E 0 ones) (false :: List.replicate n true) []
      (Receiving cap done 0x7E (n + 1) n) := by
  induction n with
  | zero => exact decodes_data (x := 0x7E) (k := 0) (by decide) (fun h => absurd h (by decide)) hones
  | succ n ih =>
    have hbit : (0x7E : Byte).getLsbD (n + 1) = true := by
      have hbits : ∀ m < 6, (0x7E : Byte).getLsbD (m + 1) = true := by decide
      exact hbits n hn
    have hdata := decodes_data (cap := cap) (done := done) (x := 0x7E) (k := n + 1) (ones := n) (by omega) (by omega)
      (by rw [if_pos hbit]; omega)
    rw [hbit, if_neg (by omega), if_pos rfl] at hdata
    rw [List.replicate_succ']
    exact (ih (by omega)).append hdata

theorem decodes_flag (hones : ones ≤ 4) :
    Decodes (Receiving cap done 0x7E 0 ones) flagBits (flagContent :: verdictContent done)
      JustOpened :=
  (decodes_flag_start (Nat.le_refl 6) hones).append (decodes_flag_end (by decide))

/-- Before its first bit it does not matter which byte comes. -/
theorem Receiving.any_byte {s : State} (y : Byte) (h : Receiving cap done x 0 ones s) :
    Receiving cap done y 0 ones s := by
  obtain ⟨⟨hs, hopen, hcap, hbuf, hcnt, hacc⟩, hrun, hidle⟩ := h
  exact ⟨⟨hs, hopen, hcap, hbuf, hcnt, by simpa [hcnt, Nat.mod_one] using hacc⟩, hrun, hidle⟩

/-- A whole byte is one byte more in the buffer. -/
theorem Receiving.whole_byte {s : State} (y : Byte) (h : Receiving cap done x 8 ones s) :
    Receiving cap (done ++ [x]) y 0 ones s := by
  obtain ⟨⟨hs, hopen, hcap, hbuf, hcnt, hacc⟩, hrun, hidle⟩ := h
  exact ⟨⟨hs, hopen, hcap, hbuf, hcnt, by simpa [hcnt, Nat.mod_one] using hacc⟩, hrun, hidle⟩

/-- The bytes to come and the closing flag, behind the bytes `done`. -/
theorem decodes_bytes (bytes sent : List Byte) (hones : ones ≤ 4)
    (hroom : ∀ c, cap = some c → done.length + bytes.length ≤ c) :
    Decodes (Receiving cap done x 0 ones) (expandFrom ones sent (bytes.map Token.byte ++ [Token.flag]))
      (bytes.map byteContent ++ flagContent :: verdictContent (done ++ bytes)) JustOpened := by
  induction bytes generalizing done x ones sent with
  | nil =>
    rw [List.append_nil]
    exact (decodes_flag hones).weaken fun _ => Receiving.any_byte 0x7E
  | cons y ys ih =>
    have hne : cap ≠ some done.length := fun hcap => by simpa using hroom _ hcap
    have hbyte := (decodes_stuffed_bits (x := y) (Nat.zero_le 8) hones hne).weaken
      fun _ => Receiving.any_byte (x := x) y
    have hrest := ih (done := done ++ [y]) (x := y) (sent ++ [y]) (stuff_run_le (byteBits y) hones)
      fun c hcap => by simpa [Nat.add_assoc, Nat.add_comm 1] using hroom c hcap
    rw [List.append_cons done y ys]
    exact hbyte.append (hrest.weaken fun _ => Receiving.whole_byte y)

end

theorem JustOpened.receiving {s : State} (h : JustOpened s) (x : Byte) : Receiving s.frameCap [] x 0 0 s := by
  obtain ⟨hs, hopen, hbuf, hacc, hcnt, hsr, hidle⟩ := h
  exact ⟨⟨hs, hopen, rfl, hbuf, hcnt, by simp [hacc, hcnt, Nat.mod_one]⟩, by rw [hsr]; rfl, by rw [hidle]; rfl⟩

/-- Settles O45: `decodes_bytes` from the state a flag leaves. -/
theorem sentFrameIsDecoded : Obligations.SentFrameIsDecoded := by
  intro s bytes ps hs hroom hps hbits
  exact decodes_bytes (x := 0) bytes [] (Nat.zero_le 4) (by simpa using hroom) s ps (hs.receiving 0) hps hbits

end Sys2Proof.Machine

/-!
PROOFS of the family 40_crc.md: the laws of a round, the bit-serial form of the engine, the residue of a frame whose
trailer matches, and the running form with a two-byte delay line.
-/

namespace Sys2Proof.Machine

/-! ## The laws of a round (R100, R101) -/

theorem getLsbD_crcRound (a : Crc) (i : Nat) :
    (crcRound a).getLsbD i = (a.getLsbD (i + 1) ^^ (a.getLsbD 0 && Config.crcPolyR.getLsbD i)) := by
  unfold crcRound
  cases a.getLsbD 0 <;> simp [Nat.add_comm 1 i]

/-- A round loses nothing: the bit it shifts out comes back as bit 15, which the polynomial sets. -/
theorem crcRound_injective : Function.Injective crcRound := by
  intro a b h
  have hbit (i : Nat) : (crcRound a).getLsbD i = (crcRound b).getLsbD i := by rw [h]
  simp only [getLsbD_crcRound] at hbit
  have hout : a.getLsbD 0 = b.getLsbD 0 := by simpa [Config.crcPolyR] using hbit 15
  refine BitVec.eq_of_getLsbD_eq fun i _ => ?_
  cases i with
  | zero => exact hout
  | succ i => exact Bool.xor_left_inj.mp (hout ▸ hbit i)

theorem crcRounds_injective (n : Nat) : Function.Injective (crcRounds n) := by
  induction n with
  | zero => exact Function.injective_id
  | succ n ih => exact ih.comp crcRound_injective

/-! ## The bit-serial engine (O31) -/

/-- One bit of the bit-serial engine: the XOR into bit 0 and a round. -/
def crcBit (a : Crc) (b : Bool) : Crc := crcRound (a ^^^ (if b then 1#16 else 0#16))

/-- Of a word XORed in, a round uses bit 0 alone; the other bits wait, moved down by one place. -/
theorem crcRound_xor (a w : Crc) : crcRound (a ^^^ w) = crcBit a (w.getLsbD 0) ^^^ (w >>> 1) := by
  refine BitVec.eq_of_getLsbD_eq fun i _ => ?_
  have hzero : (if w.getLsbD 0 then 1#16 else 0#16).getLsbD 0 = w.getLsbD 0 := by cases w.getLsbD 0 <;> rfl
  have hsucc : (if w.getLsbD 0 then 1#16 else 0#16).getLsbD (i + 1) = false := by cases w.getLsbD 0 <;> simp
  simp only [crcBit, getLsbD_crcRound, BitVec.getLsbD_xor, BitVec.getLsbD_ushiftRight, hzero, hsucc, Nat.add_comm 1 i,
    Bool.xor_false]
  exact Bool.xor_right_comm ..

/-- The rounds on a word XORed in at once take its bits in turn, bit 0 first. -/
theorem crcRounds_xor {n : Nat} {w : Crc} (a : Crc) (hw : w.toNat < 2 ^ n) :
    crcRounds n (a ^^^ w) = ((List.range n).map w.getLsbD).foldl crcBit a := by
  induction n generalizing a w with
  | zero =>
    have hzero : w = 0#16 := BitVec.eq_of_toNat_eq (Nat.lt_one_iff.mp hw)
    simp [hzero, crcRounds]
  | succ n ih =>
    have hrest : (w >>> 1).toNat < 2 ^ n := by
      rw [BitVec.toNat_ushiftRight, Nat.shiftRight_eq_div_pow]
      omega
    have hbits : (w >>> 1).getLsbD = w.getLsbD ∘ Nat.succ := by
      funext i
      simp [Nat.add_comm 1 i]
    rw [crcRounds, crcRound_xor, ih _ hrest, hbits, List.range_succ_eq_map, List.map_cons, List.map_map,
      List.foldl_cons]

theorem crcByte_eq_bits (a : Crc) (x : Byte) : crcByte a x = (byteBits x).foldl crcBit a := by
  have hx : (x.setWidth 16).toNat < 2 ^ 8 := by
    rw [BitVec.toNat_setWidth_of_le (by decide)]
    exact x.isLt
  rw [crcByte, crcRounds_xor a hx]
  rfl

theorem crcRaw_eq_bits (a : Crc) (s : List Byte) : crcRaw a s = (s.flatMap byteBits).foldl crcBit a := by
  have hbyte : crcByte = fun c x => (byteBits x).foldl crcBit c := funext₂ crcByte_eq_bits
  rw [crcRaw, hbyte, List.foldl_flatMap]

/-- Settles O31: `crcRaw_eq_bits`; the round for a bit that the statement writes out is `crcBit`. -/
theorem crcIsBitSerial : Obligations.CrcIsBitSerial := crcRaw_eq_bits

/-! ## The two forms of the verdict (O29, O30) -/

theorem exists_eq_append_trailer {frame : List Byte} (h : 2 ≤ frame.length) :
    ∃ body lo hi, frame = body ++ [lo, hi] := by
  have htrailer : (frame.drop (frame.length - 2)).length = 2 := by
    rw [List.length_drop]
    omega
  obtain ⟨lo, hi, hdrop⟩ := List.length_eq_two.mp htrailer
  exact ⟨frame.take (frame.length - 2), lo, hi, by rw [← hdrop, List.take_append_drop]⟩

/-- The compare form of the verdict (43_framer.md R182) on a frame split before its trailer. -/
theorem trailerMatches_append (body : List Byte) (lo hi : Byte) :
    crc16X25 ((body ++ [lo, hi]).take ((body ++ [lo, hi]).length - 2)) = receivedCheck (body ++ [lo, hi]) ↔
      crc16X25 body = hi ++ lo := by
  simp [receivedCheck_append]

/-- The bits of a 16-bit word are those of its low byte, then those of its high byte (20_memory.md R60, R62). -/
theorem range_map_getLsbD_append (hi lo : Byte) :
    (List.range 16).map (hi ++ lo).getLsbD = [lo, hi].flatMap byteBits := by
  have hlow : (List.range 8).map (hi ++ lo).getLsbD = byteBits lo :=
    List.map_congr_left fun _ h => BitVec.getLsbD_append.trans (if_pos (List.mem_range.mp h))
  have hhigh : (List.range 8).map ((hi ++ lo).getLsbD ∘ (8 + ·)) = byteBits hi :=
    List.map_congr_left fun _ _ => BitVec.getLsbD_append.trans (by simp)
  rw [List.range_add (n := 8) (m := 8), List.map_append, List.map_map, hlow, hhigh]
  rfl

/-- Two bytes are 16 rounds on the word they make, low byte first. -/
theorem crcRaw_trailer (a : Crc) (lo hi : Byte) : crcRaw a [lo, hi] = crcRounds 16 (a ^^^ (hi ++ lo)) := by
  rw [crcRounds_xor a (hi ++ lo).isLt, range_map_getLsbD_append, crcRaw_eq_bits]

/-- The residue is what 16 rounds make of 0xFFFF, the word a matching trailer leaves when XORed into the accumulator. -/
theorem crcRounds_ones : crcRounds 16 0xFFFF = 0xF0B8 := by
  simp [crcRounds, crcRound, Config.crcPolyR]

/-- Settles O30: the rounds of the trailer are injective, so the residue names their one input (`crcRaw_trailer`). -/
theorem residueIffTrailerMatches : Obligations.ResidueIffTrailerMatches := by
  intro frame hlen
  obtain ⟨body, lo, hi, rfl⟩ := exists_eq_append_trailer hlen
  rw [trailerMatches_append]
  have hraw : crcRaw 0xFFFF (body ++ [lo, hi]) = crcRounds 16 (crcRaw Config.crcInit body ^^^ (hi ++ lo)) := by
    rw [← crcRaw_trailer]
    exact List.foldl_append
  calc crcRaw 0xFFFF (body ++ [lo, hi]) = 0xF0B8
      ↔ crcRaw Config.crcInit body ^^^ (hi ++ lo) = Config.crcXorOut := by
        rw [hraw, ← crcRounds_ones, (crcRounds_injective 16).eq_iff, Config.crcXorOut]
    _ ↔ crc16X25 body = hi ++ lo := by
        rw [crc16X25, xor_eq_iff_right_eq, eq_comm]

/-- The running CRC has folded all bytes but the last two, which wait in its delay line. -/
theorem foldl_runningCrcPush (body : List Byte) (lo hi : Byte) :
    (body ++ [lo, hi]).foldl runningCrcPush runningCrcStart = ⟨crcRaw Config.crcInit body, [lo, hi]⟩ := by
  induction body using List.reverseRecOn generalizing lo hi with
  | nil => rfl
  | append_singleton body x ih =>
    have hlast : body ++ [x] ++ [lo, hi] = body ++ [x, lo] ++ [hi] := by simp
    rw [hlast, List.foldl_append, ih]
    simp [runningCrcPush, crcRaw]

theorem runningCrcVerdict_trailer (a : Crc) (lo hi : Byte) :
    runningCrcVerdict ⟨a, [lo, hi]⟩ = true ↔ a ^^^ Config.crcXorOut = hi ++ lo := by
  rw [← receivedCheck_append []]
  exact beq_iff_eq

/-- Settles O29: what the running CRC has folded and holds back (`foldl_runningCrcPush`) is what the close compares. -/
theorem runningCrcSameVerdict : Obligations.RunningCrcSameVerdict := by
  intro frame hlen
  obtain ⟨body, lo, hi, rfl⟩ := exists_eq_append_trailer hlen
  rw [trailerMatches_append, foldl_runningCrcPush, runningCrcVerdict_trailer, crc16X25]

end Sys2Proof.Machine

/-!
PROOFS of the family 41_classifier.md: the class of the next bit as the idle counter decides it.
-/

namespace Sys2Proof.Machine

/-- Settles O35: the class is decided by the run of ones in `sr` (`classify_shiftWindow`), and the counter cut at 8 is
that run (10_state.md R33 item 3), so the two agree on every bound below 8 (41_classifier.md R126). -/
theorem classByRunOfOnes : Obligations.ClassByRunOfOnes := by
  intro s b h
  have hrun := h.idleIsRun
  have hsix : trailingOnes s.sr = 6 ↔ s.idleCnt.toNat = 6 := by omega
  have hfour : trailingOnes s.sr ≤ 4 ↔ s.idleCnt.toNat ≤ 4 := by omega
  rw [← shiftWindow, classify_shiftWindow]
  simp only [hsix, hfour]

end Sys2Proof.Machine

/-!
PROOFS of the family 42_idle.md: the idle detector's rows, the state in which an IDLE is emitted, and the events of a
line of ones.
-/

namespace Sys2Proof.Machine

/-! ## The idle detector's rows (O25) -/

/-- A one-bit in the idle detector, as one equation (42_idle.md R140, R141). -/
theorem idleUpdate_true (s : State) :
    idleUpdate true s = { s with
      idleCnt := if s.idleCnt = 15 then 15 else s.idleCnt + 1
      out := if s.idleCnt = 14 then s.out ++ [idleEvent s] else s.out } := by
  obtain ⟨h, -⟩ | ⟨-, hlt, e⟩ | ⟨-, hcnt, e⟩ | ⟨-, hcnt, e⟩ := idleUpdate_cases true s
  · cases h
  · have h14 : s.idleCnt ≠ 14 := by bv_omega
    have h15 : s.idleCnt ≠ 15 := by bv_omega
    rw [e, if_neg h14, if_neg h15]
  · rw [e, hcnt]
    rfl
  · have h14 : s.idleCnt ≠ 14 := by bv_omega
    rw [e, if_neg h14, if_pos hcnt, ← hcnt]

/-- Settles O25: a one-bit by `idleUpdate_true`; the row of a zero-bit is that assignment. -/
theorem idleRowsResult : Obligations.IdleRowsResult :=
  fun s => ⟨rfl, congrArg Host.Outcome.next (idleUpdate_true s)⟩

/-! ## When an IDLE is emitted (O39) -/

/-- The framer's sub-step emits no IDLE (43_framer.md R161 to R183). -/
theorem framerStep_out_kind_ne_idle (c : BitClass) {s : State} (hout : s.out = []) :
    ∀ e ∈ (framerStep c s).out, e.kind ≠ .idle := by
  obtain e | ⟨-, e⟩ | ⟨-, -, e⟩ | ⟨-, e⟩ | ⟨-, b, e⟩ := framerStep_out_cases c hout <;> rw [e]
  · simp
  · simp [flagEvent]
  · simp [flagEvent, frameResultEvent]
  · simp [abortEvent]
  · simp [byteEvent]

/-- A cycle that emits an IDLE is a STEP that accepts a one-bit behind fourteen others (42_idle.md R140). -/
theorem step_emits_idle {s t : State} {e : Event} (h : step s = .next t) (he : e ∈ t.out) (hk : e.kind = .idle) :
    s.fault = none ∧ selectBit s.port = true ∧ s.idleCnt = 14 ∧ t = consumeInput (stepCore s) := by
  obtain hnone | ⟨-, hout⟩ | ⟨hs, hbit, hcnt, -⟩ := step_out_cases h
  · rw [hnone] at he
    cases he
  · rw [hout] at he
    exact absurd hk (framerStep_out_kind_ne_idle _ (s := acceptBit s.port (clearEvents s)) rfl e he)
  · obtain ⟨-, rfl⟩ | ⟨-, -, rfl⟩ | ⟨-, -, rfl⟩ := step_cases h
    · cases he
    · exact ⟨hs, hbit, hcnt, rfl⟩
    · cases he

/-- Of the 256 windows only the one of eight ones ends in a run of eight. -/
theorem eq_of_trailingOnes_eq_eight : ∀ w : BitVec 8, trailingOnes w = 8 → w = 0xFF := by
  decide +kernel

/-- A STEP leaves the framing state that the framer's sub-step made (44_step.md R202). -/
theorem stepCore_fstate {s : State} (hs : s.fault = none) : (stepCore s).fstate = (framed s).fstate := by
  obtain ⟨n, es, e, -⟩ := stepCore_eq_framed hs
  rw [e]

theorem searching_of_ne_frameActive {f : FState} (h : f ≠ .frameActive) : f = .searching := by
  cases f
  · rfl
  · exact absurd rfl h

/-- Settles O39: the counter at 14 rules an open frame out (10_state.md R33 item 4) and is a run that the fifteenth one
makes fill the window (item 3), so its class is not FLAG and opens no frame. -/
theorem idleOnlyWhileSearching : Obligations.IdleOnlyWhileSearching := by
  intro s t e hinv hstep he hk
  obtain ⟨hs, hbit, hcnt, rfl⟩ := step_emits_idle hstep he hk
  obtain ⟨-, -, hrun, hactive, -⟩ := hinv.framing hs
  have hclosed : s.fstate ≠ .frameActive := fun hopen => absurd (hactive hopen) (by simp [hcnt])
  have hfull : trailingOnes (shiftWindow s.sr (selectBit s.port)) = 8 := by
    rw [trailingOnes_shiftWindow, hbit, ← hrun, hcnt]
    rfl
  have hclosed' : (framed s).fstate ≠ .frameActive := fun hopen => by
    obtain hflag | ⟨hopen', -⟩ := framerStep_frameActive hopen
    · simp [trailingOnes_of_classify_eq_flag hflag] at hfull
    · exact hclosed hopen'
  obtain ⟨hsr, -⟩ := stepCore_accepts hs
  exact ⟨searching_of_ne_frameActive hclosed, (stepCore_fstate hs).trans (searching_of_ne_frameActive hclosed'),
    hsr.trans (eq_of_trailingOnes_eq_eight _ hfull)⟩

/-! ## A line of ones (O44) -/

/-- What the `n + 1`st one-bit of an idle line emits, positions aside (42_idle.md R144). -/
def idleLineEvent (n : Nat) : List Event :=
  if n = 6 then [⟨.abort, 0, 0, 0, 0, false, false⟩]
  else if n = 14 then [⟨.idle, 0, 0, 0, 0, false, false⟩]
  else []

/-- What `n` one-bits of an idle line emit, positions aside (42_idle.md R144). -/
def idleLineEvents (n : Nat) : List Event :=
  (if 7 ≤ n then [⟨.abort, 0, 0, 0, 0, false, false⟩] else []) ++
    (if 15 ≤ n then [⟨.idle, 0, 0, 0, 0, false, false⟩] else [])

theorem idleLineEvents_succ (n : Nat) : idleLineEvents (n + 1) = idleLineEvents n ++ idleLineEvent n := by
  obtain h | rfl | h | rfl | h : n < 6 ∨ n = 6 ∨ (6 < n ∧ n < 14) ∨ n = 14 ∨ 14 < n := by omega
  case inr.inl | inr.inr.inr.inl => rfl
  all_goals simp (disch := omega) only [idleLineEvents, idleLineEvent, if_pos, if_neg, List.append_nil]

/-- The state after `n` one-bits with no frame open, the window and the counter showing as much of the run as they can
hold. -/
structure OnIdleLine (n : Nat) (s : State) : Prop where
  isSafe : s.safe
  searching : s.fstate = .searching
  run : trailingOnes s.sr = min n 8
  idle : s.idleCnt.toNat = min n 15

theorem OnIdleLine.setInput {n : Nat} (s : State) (l : List PortIn) (h : OnIdleLine n s) :
    OnIdleLine n { s with input := l } :=
  ⟨h.isSafe, h.searching, h.run, h.idle⟩

theorem resetCore_onIdleLine (s : State) : OnIdleLine 0 (resetCore s) :=
  ⟨rfl, rfl, by rw [resetCore_sr]; rfl, rfl⟩

/-- A STEP whose framer does not fault is the framer's sub-step, then the idle update (44_step.md R202). -/
theorem stepCore_eq_idleUpdate {s : State} (hs : s.fault = none) (hf : (framed s).fault = none) :
    stepCore s = idleUpdate (selectBit s.port) (framed s) := by
  obtain ⟨h, -⟩ | ⟨-, e⟩ := stepCore_cases s
  · exact absurd hs h
  obtain ⟨-, e'⟩ | ⟨h, -⟩ := finishStep_cases (selectBit s.port) (framed s)
  · exact e.trans e'
  · exact absurd hf h

/-- The framer's sub-step on the next one-bit: the seventh is an ABORT, every other one DATA and ignored
(41_classifier.md R126, 43_framer.md R166, R170). -/
theorem framed_of_onIdleLine {n : Nat} {s : State} (h : OnIdleLine n s) (hbit : selectBit s.port = true) :
    (framed s).fault = none ∧ (framed s).fstate = .searching ∧
      (framed s).out = if n = 6 then [abortEvent (acceptBit s.port (clearEvents s))] else [] := by
  have hsix : min n 8 = 6 ↔ n = 6 := by omega
  have hclass : classify (shiftWindow s.sr (selectBit s.port)) = if n = 6 then .abort else .data true := by
    simp [classify_shiftWindow, hbit, h.run, hsix]
  obtain ⟨hfault, hout, hstate⟩ := framerStep_of_searching (s := acceptBit s.port (clearEvents s))
    (if n = 6 then .abort else .data true) h.searching
  rw [framed, hclass]
  refine ⟨hfault.trans h.isSafe, hstate (by split <;> simp), hout.trans ?_⟩
  split <;> rfl

theorem stepCore_onIdleLine_out {n : Nat} {s : State} (h : OnIdleLine n s) (hbit : selectBit s.port = true) :
    (stepCore s).out.map Event.content = idleLineEvent n := by
  obtain ⟨hsafe, -, hout⟩ := framed_of_onIdleLine h hbit
  obtain ⟨-, hcnt, -⟩ := framed_frame s
  have hfourteen : s.idleCnt = 14 ↔ n = 14 := by
    have hidle := h.idle
    bv_omega
  rw [stepCore_eq_idleUpdate h.isSafe hsafe, hbit, idleUpdate_true, hcnt, hout]
  simp only [hfourteen]
  by_cases hn : n = 6
  · subst hn
    rfl
  · by_cases hn' : n = 14
    · subst hn'
      rfl
    · simp [hn, hn', idleLineEvent]

theorem stepCore_onIdleLine {n : Nat} {s : State} (h : OnIdleLine n s) (hbit : selectBit s.port = true) :
    OnIdleLine (n + 1) (stepCore s) := by
  obtain ⟨hsafe, hsearch, -⟩ := framed_of_onIdleLine h hbit
  obtain ⟨hsr, -⟩ := stepCore_accepts h.isSafe
  have hs' : (stepCore s).fault = none := by
    rw [stepCore_eq_idleUpdate h.isSafe hsafe, hbit, idleUpdate_true]
    exact hsafe
  refine ⟨hs', (stepCore_fstate h.isSafe).trans hsearch, ?_, ?_⟩
  · rw [hsr, trailingOnes_shiftWindow, if_pos hbit, h.run]
    omega
  · rw [stepCore_idleCnt_toNat h.isSafe hs', if_pos hbit, h.idle]
    omega

/-- The rule for `n` one-bits behind a RESET. -/
theorem decodes_idleLine (n : Nat) :
    Decodes (OnIdleLine 0) (List.replicate n true) (idleLineEvents n) (OnIdleLine n) := by
  induction n with
  | zero => exact decodes_nil OnIdleLine.setInput
  | succ n ih =>
    rw [List.replicate_succ', idleLineEvents_succ]
    exact ih.append (decodes_bit OnIdleLine.setInput OnIdleLine.setInput
      fun _ h hbit => ⟨stepCore_onIdleLine_out h hbit, stepCore_onIdleLine h hbit⟩)

/-- Settles O44: `decodes_idleLine` from the state RESET makes. -/
theorem idleLineFromReset : Obligations.IdleLineFromReset := by
  intro s r ps hr hps
  have hbits : ps.map selectBit = List.replicate ps.length true :=
    List.map_eq_replicate_iff.mpr fun p hp => (hps p hp).2
  rw [pass_reset_cons hr]
  exact (decodes_idleLine ps.length _ ps (resetCore_onIdleLine s) (fun p hp => (hps p hp).1) hbits).1

end Sys2Proof.Machine

/-!
PROOFS of the family 43_framer.md: the framer's rows, each as one update of the state: the fold of a data bit, the
FLAG rows, ABORT, and the rows whose bit is ignored.
-/

namespace Sys2Proof.Machine

/-! ## The fold of a data bit (O22) -/

/-- `acc | (b << cnt)` with the shift of a bit written out (43_framer.md R172). -/
theorem foldBit_eq_ite (acc : Byte) (cnt : BitVec 3) (b : Bool) :
    foldBit acc cnt b = acc ||| (if b then 1#8 <<< cnt.toNat else 0#8) := by
  rw [foldBit, bitByte_eq_ite]
  cases b <;> simp

/-- Behind a byte's first bit its start position stays (43_framer.md R172). -/
theorem foldIn_of_cnt_eq_seven {s : State} (b : Bool) (h : s.cnt = 7) :
    foldIn b s = { s with acc := foldBit s.acc s.cnt b } := by
  simp [foldIn, h]

/-- At the 8th bit with room in the buffer: the byte is appended and emitted, and the next one begins (43_framer.md
R172). -/
theorem dataFold_of_room {s : State} (b : Bool) (h : s.cnt = 7) (hroom : s.frameCap ≠ some s.fbuf.length) :
    dataFold b s = { s with
      acc := 0, cnt := 0, fbuf := s.fbuf ++ [foldBit s.acc s.cnt b]
      out := s.out ++ [byteEvent (foldBit s.acc s.cnt b) s] } := by
  obtain ⟨hne, -⟩ | ⟨-, e⟩ := dataFold_cases b s
  · exact absurd h hne
  obtain ⟨hfull, -⟩ | ⟨-, e'⟩ := completeByte_cases (foldIn b s)
  · exact absurd hfull hroom
  rw [e, e', foldIn_of_cnt_eq_seven b h]
  rfl

/-- At the 8th bit with the buffer full: the fault, and no events (43_framer.md R172, 60_exceptions.md R231, R232). -/
theorem dataFold_of_full {s : State} (b : Bool) (h : s.cnt = 7) (hfull : s.frameCap = some s.fbuf.length) :
    dataFold b s = { s with acc := foldBit s.acc s.cnt b, fault := some .frameOverflow, out := [] } := by
  obtain ⟨hne, -⟩ | ⟨-, e⟩ := dataFold_cases b s
  · exact absurd h hne
  obtain ⟨-, e'⟩ | ⟨hroom, -⟩ := completeByte_cases (foldIn b s)
  · rw [e, e', foldIn_of_cnt_eq_seven b h]
    rfl
  · exact absurd hfull hroom

/-- The two rows that fold a bit, and the bit each folds: the current one, or the window's bit 0 (43_framer.md R172). -/
theorem exec_eq_dataFold {s : State} {i : Instr} {b : Bool}
    (h : (i = .dataFold ∧ b = s.sr.getLsbD 0) ∨
      (s.fstate = .frameActive ∧ ∃ w : BitVec 8, i = .data w ∧ b = w.getLsbD 0)) :
    exec i s = .next (dataFold b s) := by
  obtain ⟨rfl, rfl⟩ | ⟨hopen, w, rfl, rfl⟩ := h
  · rfl
  · exact congrArg Host.Outcome.next (if_pos hopen)

/-- Settles O22: the three cases of `dataFold`, by the bit count and the room in the buffer. -/
theorem dataFoldResult : Obligations.DataFoldResult := by
  intro s i b v hrow hv
  rw [← foldBit_eq_ite] at hv
  subst hv
  rw [exec_eq_dataFold hrow]
  refine ⟨fun hcnt => ?_, fun hcnt hroom => ?_, fun hcnt hfull => ⟨foldBit s.acc s.cnt b, ?_⟩⟩
  · obtain ⟨-, e⟩ | ⟨hseven, -⟩ := dataFold_cases b s
    · rw [e]
      rfl
    · exact absurd hseven hcnt
  · rw [dataFold_of_room b hcnt hroom]
    rfl
  · rw [dataFold_of_full b hcnt hfull]

/-! ## FLAG in every framing state (O23) -/

/-- The results FLAG emits: one on an open frame of 2 bytes or more (43_framer.md R164, R165, R180). -/
def flagResults (s : State) : List Event :=
  if s.fstate = .frameActive ∧ 2 ≤ s.fbuf.length then [frameResultEvent s] else []

/-- FLAG as one update: the FLAG event and the results of the frame there was, then a fresh frame (43_framer.md
R161 to R165). -/
theorem framerStep_flag_eq (s : State) :
    framerStep .flag s = { s with
      fbuf := [], acc := 0, cnt := 0, fstate := .frameActive, frameStart := hist 0 s
      out := s.out ++ flagEvent s :: flagResults s } := by
  obtain ⟨-, hf, e⟩ | ⟨-, hf, hlen, e⟩ | ⟨-, -, hlen, e⟩ | ⟨h, -⟩ | ⟨h, -⟩ | ⟨_, h, -⟩ | ⟨_, h, -⟩ :=
    framerStep_cases .flag s
  · have hres : flagResults s = [] := if_neg (by simp [hf])
    rw [e, hres]
    rfl
  · have hres : flagResults s = [frameResultEvent s] := if_pos ⟨hf, hlen⟩
    rw [e, hres, flagCloseOpen_eq]
  · have hres : flagResults s = [] := if_neg (by simp [hlen])
    rw [e, hres]
    rfl
  all_goals cases h

theorem flagResults_content (s : State) :
    (flagResults s).map Event.content = if s.fstate = .frameActive then verdictContent s.fbuf else [] := by
  by_cases hf : s.fstate = .frameActive
  · by_cases hlen : 2 ≤ s.fbuf.length
    · rw [flagResults, if_pos ⟨hf, hlen⟩, if_pos hf]
      exact frameResultEvent_content hlen
    · simp [flagResults, verdictContent, hf, hlen, Nat.not_le.mp hlen]
  · simp [flagResults, hf]

/-- A result spans the frame, from its start to the current bit (43_framer.md R183). -/
theorem flagResults_span {s : State} {e : Event} (he : e ∈ flagResults s) :
    e.start = s.frameStart ∧ e.stop = hist 0 s := by
  unfold flagResults at he
  split at he
  · obtain rfl := List.mem_singleton.mp he
    exact ⟨rfl, rfl⟩
  · cases he

/-- Settles O23: the results are `flagResults`. -/
theorem flagResult : Obligations.FlagResult := fun s =>
  ⟨flagResults s, congrArg Host.Outcome.next (framerStep_flag_eq s), flagResults_content s,
    fun _ => flagResults_span⟩

/-! ## The FLAG actions one by one (O17, O18) -/

/-- Settles O17: both rows are the FLAG event, then `openFrame`. -/
theorem flagOpenAndResyncResult : Obligations.FlagOpenAndResyncResult := by
  rintro s i (rfl | rfl) <;> rfl

/-- The FRAME_RESULT of a frame of at most 5 bytes (43_framer.md R181, R183). -/
theorem frameResultEvent_of_short {s : State} (h : s.fbuf.length < 6) :
    frameResultEvent s = ⟨.frameResult, s.frameStart, hist 0 s, 0, s.fbuf.length, false, true⟩ := by
  have hshort : tooShort s.fbuf = true := decide_eq_true h
  simp [frameResultEvent, crcValid, hshort]

/-- Settles O18: the result of `flagCloseOpen_eq` is a too-short one. -/
theorem closeTooShortResult : Obligations.CloseTooShortResult := by
  intro s _ hlen
  change Host.Outcome.next (flagCloseOpen s) = _
  rw [flagCloseOpen_eq, frameResultEvent_of_short hlen]
  rfl

/-! ## ABORT and the ignored bits (O20, O21) -/

/-- Settles O20: the window row and the action row both run `abortDiscard`, whose assignments these are. -/
theorem abortResult : Obligations.AbortResult := by
  rintro s i (rfl | ⟨fs, rfl⟩) <;> rfl

/-- Settles O21: only DATA's row looks at the state, and with no frame open it drops the bit. -/
theorem ignoredBitsResult : Obligations.IgnoredBitsResult := by
  rintro s i (rfl | rfl | rfl | ⟨h, rfl⟩ | ⟨hsearch, w, rfl⟩)
  case inr.inr.inr.inr =>
    have hclosed : s.fstate ≠ .frameActive := by simp [hsearch]
    exact congrArg Host.Outcome.next (if_neg hclosed)
  all_goals rfl

end Sys2Proof.Machine

/-!
PROOFS of the family 44_step.md: decoding does not see positions, HOLD cycles, a STEP as its sub-steps, and the spans of
a cycle's events.
-/

namespace Sys2Proof.Machine

/-! ## Positions do not affect decoding (O40) -/

/-- Positions aside, what `f` answers depends on a state only through what is left of it, positions aside (44_step.md
R206). -/
def PositionBlind (f : State → State) : Prop :=
  ∀ s t : State, s.erasePositions = t.erasePositions → (f s).erasePositions = (f t).erasePositions

theorem positionBlind_id : PositionBlind fun s => s := fun _ _ hst => hst

/-- It is enough to compare a state with the one whose positions are forgotten. -/
theorem positionBlind_of_erased {f : State → State}
    (h : ∀ s : State, (f s).erasePositions = (f s.erasePositions).erasePositions) : PositionBlind f :=
  fun s t hst => by rw [h s, h t, hst]

theorem PositionBlind.comp {f g : State → State} (hf : PositionBlind f) (hg : PositionBlind g) :
    PositionBlind fun s => f (g s) :=
  fun s t hst => hf _ _ (hg s t hst)

/-- A choice made by what is left of a state, positions aside. -/
theorem PositionBlind.ite {f g : State → State} {c : State → Prop} [DecidablePred c] (hf : PositionBlind f)
    (hg : PositionBlind g) (hc : ∀ s, c s.erasePositions ↔ c s) :
    PositionBlind fun s => if c s then f s else g s := by
  intro s t hst
  have hcs : c s ↔ c t := by rw [← hc s, hst, hc t]
  by_cases h : c s
  · simpa only [if_pos h, if_pos (hcs.mp h)] using hf s t hst
  · simpa only [if_neg h, if_neg (mt hcs.mpr h)] using hg s t hst

@[simp] theorem Event.content_content (e : Event) : e.content.content = e.content := rfl

/-- The contents of a FLAG's event and verdict are decided by the framing state and the buffer (43_framer.md R161 to
R165). -/
theorem framerStep_flag_positionBlind : PositionBlind (framerStep .flag) := by
  refine positionBlind_of_erased fun s => ?_
  rw [framerStep_flag_eq, framerStep_flag_eq]
  simp [State.erasePositions, flagResults_content, flagEvent, Event.content]

theorem abortDiscard_positionBlind : PositionBlind abortDiscard :=
  positionBlind_of_erased fun s => by simp [State.erasePositions, abortEvent, Event.content]

/-- A byte in progress counts the bit (43_framer.md R172). -/
theorem dataFold_of_cnt_ne_seven {s : State} (b : Bool) (h : s.cnt ≠ 7) :
    dataFold b s = { foldIn b s with cnt := s.cnt + 1 } := by
  obtain ⟨-, e⟩ | ⟨hseven, -⟩ := dataFold_cases b s
  · exact e
  · exact absurd hseven h

/-- Whether a byte is complete and has room is decided without positions, and so is its value (43_framer.md R172). -/
theorem dataFold_positionBlind (b : Bool) : PositionBlind (dataFold b) := by
  refine positionBlind_of_erased fun s => ?_
  by_cases hcnt : s.cnt = 7
  · by_cases hfull : s.frameCap = some s.fbuf.length
    · rw [dataFold_of_full b hcnt hfull, dataFold_of_full (s := s.erasePositions) b hcnt hfull]
      simp [State.erasePositions]
    · rw [dataFold_of_room b hcnt hfull, dataFold_of_room (s := s.erasePositions) b hcnt hfull]
      simp [State.erasePositions, byteEvent, Event.content]
  · rw [dataFold_of_cnt_ne_seven b hcnt, dataFold_of_cnt_ne_seven (s := s.erasePositions) b hcnt]
    simp [State.erasePositions]

theorem framerStep_positionBlind (c : BitClass) : PositionBlind (framerStep c) := by
  cases c with
  | flag => exact framerStep_flag_positionBlind
  | abort => exact abortDiscard_positionBlind
  | stuffed => exact positionBlind_id
  | data b => exact (dataFold_positionBlind b).ite positionBlind_id fun _ => Iff.rfl

/-- The counter alone decides what a one-bit does (42_idle.md R140). -/
theorem idleOne_positionBlind : PositionBlind idleOne := by
  have hfire : PositionBlind fun s => emit (idleEvent s) { s with idleCnt := s.idleCnt + 1 } :=
    positionBlind_of_erased fun s => by simp [State.erasePositions, idleEvent, Event.content]
  have hcount : PositionBlind fun s => { s with idleCnt := s.idleCnt + 1 } :=
    positionBlind_of_erased fun s => by simp [State.erasePositions]
  exact (hfire.ite hcount fun _ => Iff.rfl).ite positionBlind_id fun _ => Iff.rfl

theorem idleUpdate_positionBlind (b : Bool) : PositionBlind (idleUpdate b) := by
  cases b with
  | false => exact positionBlind_of_erased fun s => by simp [idleUpdate, State.erasePositions]
  | true => exact idleOne_positionBlind

/-- The idle update is forestalled by the fault mark alone (44_step.md R203). -/
theorem finishStep_positionBlind (b : Bool) : PositionBlind (finishStep b) := by
  have h : finishStep b = fun s => if s.fault = none then idleUpdate b s else s := by
    funext s
    obtain ⟨hs, e⟩ | ⟨hs, e⟩ := finishStep_cases b s
    · rw [if_pos hs, e]
    · rw [if_neg hs, e]
  rw [h]
  exact (idleUpdate_positionBlind b).ite positionBlind_id fun _ => Iff.rfl

theorem clearEvents_positionBlind : PositionBlind clearEvents :=
  positionBlind_of_erased fun s => by simp [State.erasePositions]

theorem port_erasePositions (s : State) : s.erasePositions.port = { s.port with pos := 0 } := by
  cases h : s.input <;> simp [State.port, State.erasePositions, h, PortIn.quiet]

theorem selectBit_port_erasePositions (s : State) : selectBit s.erasePositions.port = selectBit s.port := by
  rw [port_erasePositions]
  rfl

/-- The accepted bit and its class do not depend on the position pushed (44_step.md R201, R202). -/
theorem framed_positionBlind : PositionBlind framed := by
  refine positionBlind_of_erased fun s => ?_
  have haccept : (acceptBit s.port (clearEvents s)).erasePositions =
      (acceptBit s.erasePositions.port (clearEvents s.erasePositions)).erasePositions := by
    rw [acceptBit, acceptBit, selectBit_port_erasePositions]
    simp [State.erasePositions]
  rw [framed, framed, selectBit_port_erasePositions]
  exact framerStep_positionBlind _ _ _ haccept

theorem stepCore_eq_ite (s : State) :
    stepCore s = if s.fault = none then finishStep (selectBit s.port) (framed s) else clearEvents s := by
  obtain ⟨hs, e⟩ | ⟨hs, e⟩ := stepCore_cases s
  · rw [if_neg hs, e]
  · rw [if_pos hs, e, framed]

theorem stepCore_positionBlind : PositionBlind stepCore := by
  have hstep : PositionBlind fun s => finishStep (selectBit s.port) (framed s) :=
    positionBlind_of_erased fun s => by
      rw [selectBit_port_erasePositions]
      exact (finishStep_positionBlind _).comp framed_positionBlind s s.erasePositions (by simp [State.erasePositions])
  rw [show stepCore = _ from funext stepCore_eq_ite]
  exact hstep.ite clearEvents_positionBlind fun _ => Iff.rfl

theorem resetCore_positionBlind : PositionBlind resetCore :=
  positionBlind_of_erased fun s => by simp [State.erasePositions]

theorem consumeInput_positionBlind : PositionBlind consumeInput :=
  positionBlind_of_erased fun s => by simp [State.erasePositions, Function.comp_def]

/-- Settles O40: each kind of cycle is `PositionBlind`, and the control bits choose between them. -/
theorem positionsDoNotAffectDecoding : Obligations.PositionsDoNotAffectDecoding := by
  intro s t hst
  have hrow : PositionBlind fun s =>
      if s.port.rst then resetCore s else if s.port.inValid then stepCore s else clearEvents s :=
    resetCore_positionBlind.ite
      (stepCore_positionBlind.ite clearEvents_positionBlind fun s => by rw [port_erasePositions])
      fun s => by rw [port_erasePositions]
  exact ⟨_, _, step_eq s, step_eq t, consumeInput_positionBlind.comp hrow s t hst⟩

/-! ## HOLD cycles (O12, O13, O42) -/

/-- Settles O12: the row is that assignment. -/
theorem holdResult : Obligations.HoldResult := fun _ => rfl

/-- Settles O13: the missing bundle is a quiet one, so the cycle is HOLD's. -/
theorem exhaustedInputHolds : Obligations.ExhaustedInputHolds := by
  intro s hs
  have hport : s.port = PortIn.quiet := by rw [State.port, hs]; rfl
  rw [step_eq, hport]
  simp [PortIn.quiet, consumeInput, clearEvents, hs]

/-- What a cycle emits and the state it leaves do not depend on the bundles behind its own (44_step.md R209). -/
theorem exists_pass_cons (p : PortIn) (s : State) :
    ∃ t, ∀ ps, pass (p :: ps) s = ((pass ps t).1, t.out ++ (pass ps t).2) := by
  obtain ⟨t, ht⟩ := step_answers { s with input := [p] }
  refine ⟨t, fun ps => ?_⟩
  have hstep : step { s with input := p :: ps } = .next { t with input := ps } :=
    step_setInput (s := { s with input := [p] }) (l := p :: ps) ht rfl rfl rfl rfl
  exact (pass_cons hstep).trans rfl

/-- A HOLD at the head of a pass only empties the output port (44_step.md R208). -/
theorem pass_hold_cons {p : PortIn} (hr : p.rst = false) (hv : p.inValid = false) (ps : List PortIn) (s : State) :
    pass (p :: ps) s = pass ps (clearEvents s) := by
  have hport : State.port { s with input := p :: ps } = p := rfl
  have hstep : step { s with input := p :: ps } = .next (consumeInput (clearEvents { s with input := p :: ps })) := by
    rw [step_eq, hport, if_neg (by simp [hr]), if_neg (by simp [hv])]
  rw [pass_cons hstep]
  rfl

/-- No cycle sees the output port of the one before. -/
theorem step_clearEvents (s : State) : step (clearEvents s) = step s := by
  have hcore : stepCore (clearEvents s) = stepCore s := by
    rw [stepCore_eq_ite, stepCore_eq_ite]
    rfl
  rw [step_eq, step_eq, hcore]
  rfl

/-- What the output port held before a pass shows in no event of it, and in its end state only if no cycle ran. -/
theorem pass_clearEvents (ps : List PortIn) (s : State) :
    (pass ps (clearEvents s)).2 = (pass ps s).2 ∧
      clearEvents (pass ps (clearEvents s)).1 = clearEvents (pass ps s).1 := by
  cases ps with
  | nil => exact ⟨rfl, rfl⟩
  | cons p ps =>
    obtain ⟨t, ht⟩ := step_answers { s with input := p :: ps }
    have hclear : step { clearEvents s with input := p :: ps } = .next t :=
      (step_clearEvents { s with input := p :: ps }).trans ht
    rw [pass_cons ht, pass_cons hclear]
    exact ⟨rfl, rfl⟩

/-- Settles O42, by induction over the bundles: a HOLD only empties the output port, which the next cycle does not see,
and the other cycles are the same in both passes. -/
theorem holdCyclesAreInvisible : Obligations.HoldCyclesAreInvisible := by
  intro s ps
  induction ps generalizing s with
  | nil => exact ⟨rfl, rfl⟩
  | cons p ps ih =>
    by_cases hp : (p.rst || p.inValid) = true
    · obtain ⟨t, ht⟩ := exists_pass_cons p s
      obtain ⟨hevents, hend⟩ := ih t
      rw [List.filter_cons, if_pos hp, ht, ht]
      exact ⟨congrArg (t.out ++ ·) hevents, hend⟩
    · obtain ⟨hr, hv⟩ : p.rst = false ∧ p.inValid = false := by simpa using hp
      obtain ⟨hevents, hend⟩ := ih (clearEvents s)
      obtain ⟨hevents', hend'⟩ := pass_clearEvents (ps.filter fun p => p.rst || p.inValid) s
      rw [List.filter_cons, if_neg hp, pass_hold_cons hr hv]
      exact ⟨hevents.trans hevents', hend.trans hend'⟩

/-! ## A STEP is its sub-steps (O7) -/

/-- The row the accepted bit decodes to is the idle update (42_idle.md R140). -/
theorem exec_decodeRow_bit1 (b : Bool) (n : Nat) (s : State) :
    exec (decodeRow .bit1 n (bitByte b)) s = .next (idleUpdate b s) := by
  cases b <;> rfl

theorem bitByte_fits_bit1 (b : Bool) : (bitByte b).toNat < 2 ^ Format.bit1.width := by
  cases b <;> decide

/-- Settles O7: the window's row makes `framed s`, the accepted bit's row is the idle update. -/
theorem stepIsItsSubSteps : Obligations.StepIsItsSubSteps := by
  intro s
  refine ⟨fun hs => ?_, fun hs => ?_⟩
  · refine ⟨_, _, framed s, idleUpdate (selectBit s.port) (framed s), decode_of_fits _ (BitVec.isLt _),
      exec_decodeWin8 _ _, decode_of_fits _ (bitByte_fits_bit1 _), exec_decodeRow_bit1 _ _ _, ?_⟩
    change Host.Outcome.next (stepCore s) = _
    rw [stepCore_eq_ite, if_pos hs]
    obtain ⟨hf, e⟩ | ⟨hf, e⟩ := finishStep_cases (selectBit s.port) (framed s)
    · rw [e, if_pos hf]
    · rw [e, if_neg hf]
  · change Host.Outcome.next (stepCore s) = _
    rw [stepCore_eq_ite, if_neg hs]
    rfl

/-! ## The spans of a cycle's events (O38) -/

/-- The event's span is the one its kind calls for (44_step.md R205): `s` is the state the framer's sub-step starts in,
with the current position pushed and the old `frame_start`, and `byteStart` is what that sub-step leaves in
`byte_start`. -/
structure Event.SpanOfKind (e : Event) (s : State) (byteStart : Position) : Prop where
  stop : e.stop = hist 0 s
  flagOrAbort : e.kind = .flag ∨ e.kind = .abort → e.start = hist 7 s
  idle : e.kind = .idle → e.start = hist 14 s
  byte : e.kind = .byte → e.start = byteStart
  frameResult : e.kind = .frameResult → e.start = s.frameStart

theorem flagEvent_spanOfKind (s : State) (p : Position) : (flagEvent s).SpanOfKind s p := by
  constructor <;> simp [flagEvent]

theorem abortEvent_spanOfKind (s : State) (p : Position) : (abortEvent s).SpanOfKind s p := by
  constructor <;> simp [abortEvent]

theorem idleEvent_spanOfKind (s : State) (p : Position) : (idleEvent s).SpanOfKind s p := by
  constructor <;> simp [idleEvent, Config.idleT]

theorem byteEvent_spanOfKind (v : Byte) (b : Bool) (s : State) :
    (byteEvent v (foldIn b s)).SpanOfKind s (foldIn b s).byteStart := by
  constructor <;> simp [byteEvent]

theorem frameResultEvent_spanOfKind (s : State) (p : Position) : (frameResultEvent s).SpanOfKind s p := by
  constructor <;> simp [frameResultEvent]

theorem flagResults_spanOfKind {s : State} {e : Event} (p : Position) (he : e ∈ flagResults s) :
    e.SpanOfKind s p := by
  unfold flagResults at he
  split at he
  · exact List.mem_singleton.mp he ▸ frameResultEvent_spanOfKind s p
  · cases he

theorem dataFold_out_spanOfKind (b : Bool) {s : State} (hout : s.out = []) :
    ∀ e ∈ (dataFold b s).out, e.SpanOfKind s (dataFold b s).byteStart := by
  obtain ⟨-, e⟩ | ⟨-, e⟩ := dataFold_cases b s
  · simp [e, hout]
  · obtain ⟨-, e'⟩ | ⟨-, e'⟩ := completeByte_cases (foldIn b s)
    · simp [e, e']
    · rw [e, e']
      simpa [hout] using byteEvent_spanOfKind _ b s

theorem framerStep_out_spanOfKind (c : BitClass) {s : State} (hout : s.out = []) :
    ∀ e ∈ (framerStep c s).out, e.SpanOfKind s (framerStep c s).byteStart := by
  cases c with
  | flag =>
    rw [framerStep_flag_eq, hout]
    exact List.forall_mem_cons.mpr ⟨flagEvent_spanOfKind s _, fun _ => flagResults_spanOfKind _⟩
  | abort => simpa [framerStep, hout] using abortEvent_spanOfKind s _
  | stuffed => simp [framerStep, hout]
  | data b =>
    obtain e | e := framerStep_data_cases b s
    · simp [e, hout]
    · rw [e]
      exact dataFold_out_spanOfKind b hout

/-- A cycle that emits is a STEP that starts with no fault (44_step.md R208, 60_exceptions.md R232). -/
theorem step_emits {s t : State} {e : Event} (h : step s = .next t) (he : e ∈ t.out) :
    s.fault = none ∧ t = consumeInput (stepCore s) := by
  obtain ⟨-, rfl⟩ | ⟨-, -, rfl⟩ | ⟨-, -, rfl⟩ := step_cases h
  · cases he
  · obtain ⟨-, hcore⟩ | ⟨hs, -⟩ := stepCore_cases s
    · rw [hcore] at he
      cases he
    · exact ⟨hs, rfl⟩
  · cases he

/-- The framer does not write the ring, so the idle update reads it as the framer did. -/
theorem idleEvent_framed (s : State) : idleEvent (framed s) = idleEvent (acceptBit s.port (clearEvents s)) := by
  obtain ⟨-, hring, hwp, hfill, -⟩ := framerStep_frame (classify (shiftWindow s.sr (selectBit s.port)))
    (acceptBit s.port (clearEvents s))
  simp only [idleEvent, framed, hist_congr hring hwp hfill]

/-- Every event of a cycle comes from the framer's sub-step or is the IDLE; both read the ring after the push. -/
theorem step_out_spanOfKind {s t : State} (h : step s = .next t) :
    ∀ e ∈ t.out, e.SpanOfKind (acceptBit s.port (clearEvents s)) (framed s).byteStart := by
  have hframed : ∀ e ∈ (framed s).out, e.SpanOfKind (acceptBit s.port (clearEvents s)) (framed s).byteStart :=
    framerStep_out_spanOfKind _ (s := acceptBit s.port (clearEvents s)) rfl
  obtain e | ⟨-, e⟩ | ⟨-, -, -, e⟩ := step_out_cases h <;> rw [e]
  · simp
  · exact hframed
  · rw [idleEvent_framed]
    exact List.forall_mem_append.mpr ⟨hframed, List.forall_mem_singleton.mpr (idleEvent_spanOfKind _ _)⟩

/-- Settles O38: the state a STEP leaves has the ring of its push and the `byte_start` of its framer's sub-step. -/
theorem spansComeFromTheRing : Obligations.SpansComeFromTheRing := by
  intro s t e hstep he
  obtain ⟨hstop, hflag, hidle, hbyte, hresult⟩ := step_out_spanOfKind hstep e he
  obtain ⟨hs, rfl⟩ := step_emits hstep he
  have hhist : ∀ j, hist j (acceptBit s.port (clearEvents s)) = hist j (consumeInput (stepCore s)) := by
    obtain ⟨-, hring, hwp, hfill⟩ := stepCore_accepts hs
    exact hist_congr hring.symm hwp.symm hfill.symm
  have hstart : (framed s).byteStart = (consumeInput (stepCore s)).byteStart := by
    obtain ⟨n, es, hcore, -⟩ := stepCore_eq_framed hs
    rw [consumeInput_byteStart, hcore]
  exact ⟨hstop.trans (hist_zero_ringPush _ _), fun hk => (hflag hk).trans (hhist 7),
    fun hk => (hidle hk).trans (hhist 14), fun hk => (hbyte hk).trans hstart, hresult⟩

end Sys2Proof.Machine

/-!
PROOFS of the family 60_exceptions.md: when the framer's sub-step overflows the frame buffer, the fault mark a STEP
leaves, and the cycles of a faulted core.
-/

namespace Sys2Proof.Machine

/-! ## When FrameOverflow is raised (O14, O15) -/

/-- A current bit of class `c` overflows the frame buffer: it is a DATA bit of an open frame and the byte's 8th, and the
buffer is full (20_memory.md R57, 43_framer.md R172, 60_exceptions.md R231). -/
def Overflows (c : BitClass) (s : State) : Prop :=
  s.fstate = .frameActive ∧ s.cnt = 7 ∧ s.frameCap = some s.fbuf.length ∧ ∃ b, c = .data b

/-- A DATA bit of an open frame is folded (43_framer.md R172). -/
theorem framerStep_data_of_active {s : State} (b : Bool) (hopen : s.fstate = .frameActive) :
    framerStep (.data b) s = dataFold b s := if_pos hopen

theorem framerStep_of_overflows {c : BitClass} {s : State} (h : Overflows c s) :
    (framerStep c s).fault = some .frameOverflow ∧ (framerStep c s).out = [] := by
  obtain ⟨hopen, hcnt, hfull, b, rfl⟩ := h
  rw [framerStep_data_of_active b hopen, dataFold_of_full b hcnt hfull]
  exact ⟨rfl, rfl⟩

theorem framerStep_fault_of_not_overflows {c : BitClass} {s : State} (h : ¬ Overflows c s) :
    (framerStep c s).fault = s.fault := by
  cases c with
  | flag => obtain ⟨es, e⟩ := framerStep_flag_opens s; simp [e]
  | abort => rfl
  | stuffed => rfl
  | data b =>
    by_cases hopen : s.fstate = .frameActive
    · rw [framerStep_data_of_active b hopen]
      by_cases hcnt : s.cnt = 7
      · exact dataFold_fault_of_room b fun hfull => h ⟨hopen, hcnt, hfull, b, rfl⟩
      · simp [dataFold_of_cnt_ne_seven b hcnt]
    · exact congrArg State.fault (if_neg hopen)

/-- A STEP raises FrameOverflow, and then delivers no event, or leaves no fault, as its bit overflows the buffer or does
not (44_step.md R203, 60_exceptions.md R231, R232). -/
theorem stepCore_fault_cases {s : State} (hs : s.fault = none) :
    (Overflows (classify (shiftWindow s.sr (selectBit s.port))) s ∧
        (stepCore s).fault = some .frameOverflow ∧ (stepCore s).out = []) ∨
      (¬ Overflows (classify (shiftWindow s.sr (selectBit s.port))) s ∧ (stepCore s).fault = none) := by
  by_cases h : Overflows (classify (shiftWindow s.sr (selectBit s.port))) s
  · obtain ⟨hfault, hout⟩ : (framed s).fault = some .frameOverflow ∧ (framed s).out = [] :=
      framerStep_of_overflows (s := acceptBit s.port (clearEvents s)) h
    obtain ⟨hf, -⟩ | ⟨-, e⟩ := finishStep_cases (selectBit s.port) (framed s)
    · simp [hfault] at hf
    · rw [stepCore_eq_ite, if_pos hs, e]
      exact .inl ⟨h, hfault, hout⟩
  · obtain ⟨n, es, e, -⟩ := stepCore_eq_framed hs
    rw [e]
    exact .inr ⟨h, (framerStep_fault_of_not_overflows (s := acceptBit s.port (clearEvents s)) h).trans hs⟩

/-- Settles O14: RESET clears the mark, HOLD keeps it, and in a STEP an unbounded buffer has room. -/
theorem unboundedBufferNeverFaults : Obligations.UnboundedBufferNeverFaults := by
  intro s hs hcap
  obtain ⟨t, ht⟩ := step_answers s
  refine ⟨t, ht, ?_⟩
  obtain ⟨-, rfl⟩ | ⟨-, -, rfl⟩ | ⟨-, -, rfl⟩ := step_cases ht
  · rfl
  · exact stepCore_fault_of_room hs (by simp [hcap])
  · exact hs

/-- Settles O15: RESET and HOLD leave no fault, and of a STEP `stepCore_fault_cases` says when it leaves one. -/
theorem overflowExactlyWhenFull : Obligations.OverflowExactlyWhenFull := by
  intro s hs
  obtain ⟨t, ht⟩ := step_answers s
  refine ⟨t, ht, ?_⟩
  obtain ⟨hr, rfl⟩ | ⟨hr, hv, rfl⟩ | ⟨-, hv, rfl⟩ := step_cases ht
  · simp [hr]
  · obtain ⟨hover, hfault, hout⟩ | ⟨hover, hfault⟩ := stepCore_fault_cases hs
    · exact ⟨⟨fun _ => ⟨hr, hv, hover⟩, fun _ => by simp [hfault]⟩, fun _ => ⟨hfault, hout⟩⟩
    · exact ⟨⟨fun h => absurd hfault h, fun ⟨_, _, h⟩ => absurd h hover⟩, fun h => absurd hfault h⟩
  · simp [hv, hs]

/-! ## A faulted core (O16) -/

/-- Settles O16: a STEP of a faulted core does what HOLD does, and RESET clears the mark. -/
theorem onlyResetLeavesFault : Obligations.OnlyResetLeavesFault := by
  intro s f hf
  obtain ⟨t, ht⟩ := step_answers s
  refine ⟨t, ht, ?_⟩
  obtain ⟨hr, rfl⟩ | ⟨hr, -, rfl⟩ | ⟨hr, -, rfl⟩ := step_cases ht
  · exact ⟨fun _ => ⟨rfl, rfl⟩, fun h => absurd h (by simp [hr])⟩
  · rw [stepCore_eq_ite, if_neg (by simp [hf])]
    exact ⟨fun h => absurd h (by simp [hr]), fun _ => rfl⟩
  · exact ⟨fun h => absurd h (by simp [hr]), fun _ => rfl⟩

end Sys2Proof.Machine

/-!
PROOFS of the family 70_reset_and_hazards.md: the state RESET makes, and that nothing of the state before it shows in
the events of the pass it begins.
-/

namespace Sys2Proof.Machine

/-! ## RESET (O11) -/

/-- Settles O11: the fields of `resetCore`. -/
theorem resetResult : Obligations.ResetResult := fun s _ => ⟨resetCore s, rfl, by simp⟩

/-! ## RESET forgets everything (O41)

RESET makes of any two states of equal capacity two that differ only in the ring's entries, which are free values, and
in the count of those drawn. No entry is read before a push has recorded a position in it, so both go on to emit the
same events. -/

/-- `s` with other ring entries and another count of drawn free values. -/
def State.withRing (s : State) (r : Vector Position 16) (n : Nat) : State := { s with ring := r, freeDraws := n }

/-- `t` is `s` but for the count of drawn free values and the ring entries that hold no recorded position
(20_memory.md R53). -/
structure SameRecord (s t : State) : Prop where
  fields : ∃ r n, t = s.withRing r n
  recorded : ∀ j < s.ringFill.toNat, hist j t = hist j s

theorem SameRecord.frame {s t : State} (h : SameRecord s t) :
    t.input = s.input ∧ t.out = s.out ∧ t.frameCap = s.frameCap := by
  obtain ⟨⟨r, n, rfl⟩, -⟩ := h
  exact ⟨rfl, rfl, rfl⟩

theorem SameRecord.clearEvents {s t : State} (h : SameRecord s t) : SameRecord (clearEvents s) (clearEvents t) := by
  obtain ⟨⟨r, n, rfl⟩, hrec⟩ := h
  exact ⟨⟨r, n, rfl⟩, hrec⟩

theorem SameRecord.consumeInput {s t : State} (h : SameRecord s t) :
    SameRecord (consumeInput s) (consumeInput t) := by
  obtain ⟨⟨r, n, rfl⟩, hrec⟩ := h
  exact ⟨⟨r, n, rfl⟩, hrec⟩

/-- RESET leaves no recorded position, and of the state before it the input and the capacity alone
(70_reset_and_hazards.md R260). -/
theorem resetCore_sameRecord {s t : State} (hinput : t.input = s.input) (hcap : t.frameCap = s.frameCap) :
    SameRecord (resetCore s) (resetCore t) := by
  refine ⟨⟨(resetCore t).ring, (resetCore t).freeDraws, ?_⟩, by simp⟩
  simp only [resetCore, State.withRing, hinput, hcap]

/-- After a push every reading is the pushed position or one that was recorded before (20_memory.md R52, R53). -/
theorem hist_ringPush_congr {s t : State} (hfill : t.ringFill = s.ringFill)
    (h : ∀ j < s.ringFill.toNat, hist j t = hist j s) (p : Position) (j : Nat) :
    hist j (ringPush p t) = hist j (ringPush p s) := by
  rw [← hist_min j, ← hist_min j (ringPush p s), ringPush_ringFill_toNat, ringPush_ringFill_toNat, hfill]
  cases hk : min j (min (s.ringFill.toNat + 1) 16 - 1) with
  | zero => simp
  | succ k =>
    rw [hist_succ_ringPush p (by omega) (by rw [hfill]; omega), hist_succ_ringPush p (by omega) (by omega)]
    exact h k (by omega)

/-! Where every reading of the ring is the same, an operation that reads it with `Hist` alone does the same. -/

section
variable {s : State} {r : Vector Position 16} {n : Nat} (hread : ∀ j, hist j (s.withRing r n) = hist j s)
include hread

theorem framerStep_flag_withRing : framerStep .flag (s.withRing r n) = (framerStep .flag s).withRing r n := by
  have hflag : flagEvent (s.withRing r n) = flagEvent s := by simp only [flagEvent, hread]
  have hresults : flagResults (s.withRing r n) = flagResults s := by
    simp only [flagResults, frameResultEvent, hread]
    rfl
  rw [framerStep_flag_eq, framerStep_flag_eq, hread, hflag, hresults]
  rfl

theorem abortDiscard_withRing : abortDiscard (s.withRing r n) = (abortDiscard s).withRing r n := by
  simp only [abortDiscard, abortEvent, hread]
  rfl

theorem dataFold_withRing (b : Bool) : dataFold b (s.withRing r n) = (dataFold b s).withRing r n := by
  by_cases hcnt : s.cnt = 7
  · by_cases hfull : s.frameCap = some s.fbuf.length
    · rw [dataFold_of_full b hcnt hfull, dataFold_of_full (s := s.withRing r n) b hcnt hfull]
      rfl
    · rw [dataFold_of_room b hcnt hfull, dataFold_of_room (s := s.withRing r n) b hcnt hfull]
      simp only [byteEvent, hread]
      rfl
  · rw [dataFold_of_cnt_ne_seven b hcnt, dataFold_of_cnt_ne_seven (s := s.withRing r n) b hcnt]
    simp only [foldIn, hread]
    rfl

theorem framerStep_withRing (c : BitClass) : framerStep c (s.withRing r n) = (framerStep c s).withRing r n := by
  cases c with
  | flag => exact framerStep_flag_withRing hread
  | abort => exact abortDiscard_withRing hread
  | stuffed => rfl
  | data b =>
    by_cases hopen : s.fstate = .frameActive
    · rw [framerStep_data_of_active b hopen, framerStep_data_of_active (s := s.withRing r n) b hopen,
        dataFold_withRing hread]
    · exact (if_neg hopen).trans (congrArg (State.withRing · r n) (if_neg hopen).symm)

theorem idleUpdate_withRing (b : Bool) : idleUpdate b (s.withRing r n) = (idleUpdate b s).withRing r n := by
  cases b with
  | false => rfl
  | true =>
    have hidle : idleEvent (s.withRing r n) = idleEvent s := by simp only [idleEvent, hread]
    rw [idleUpdate_true, idleUpdate_true, hidle]
    rfl

theorem finishStep_withRing (b : Bool) : finishStep b (s.withRing r n) = (finishStep b s).withRing r n := by
  have hfault : (s.withRing r n).fault = s.fault := rfl
  rw [finishStep, finishStep, hfault]
  cases s.fault with
  | none => exact idleUpdate_withRing hread b
  | some f => rfl

end

/-- The framer's sub-step leaves the readings that the push made (44_step.md R202). -/
theorem hist_framed (s : State) (j : Nat) : hist j (framed s) = hist j (ringPush s.port.pos s) :=
  have ⟨_, hring, hwp, hfill, _⟩ := framerStep_frame (classify (shiftWindow s.sr (selectBit s.port)))
    (acceptBit s.port (clearEvents s))
  hist_congr hring hwp hfill j

/-- A STEP reads the ring behind its push, so it reads recorded positions alone (44_step.md R202). -/
theorem stepCore_withRing {s : State} {r : Vector Position 16} {n : Nat}
    (hread : ∀ j, hist j (ringPush s.port.pos (s.withRing r n)) = hist j (ringPush s.port.pos s))
    (hs : s.fault = none) :
    stepCore (s.withRing r n) = (stepCore s).withRing (ringPush s.port.pos (s.withRing r n)).ring n := by
  have hframed : framed (s.withRing r n) = (framed s).withRing (ringPush s.port.pos (s.withRing r n)).ring n :=
    framerStep_withRing (s := acceptBit s.port (clearEvents s)) hread _
  have hread' (j : Nat) :
      hist j ((framed s).withRing (ringPush s.port.pos (s.withRing r n)).ring n) = hist j (framed s) := by
    rw [← hframed, hist_framed, hist_framed]
    exact hread j
  rw [stepCore_eq_ite, stepCore_eq_ite, if_pos hs, if_pos (show (s.withRing r n).fault = none from hs), hframed]
  exact finishStep_withRing hread' _

theorem SameRecord.stepCore {s t : State} (h : SameRecord s t) : SameRecord (stepCore s) (stepCore t) := by
  by_cases hs : s.fault = none
  · obtain ⟨⟨r, n, rfl⟩, hrec⟩ := h
    have hread := hist_ringPush_congr (s := s) (t := s.withRing r n) rfl hrec s.port.pos
    obtain ⟨-, hring, hwp, hfill⟩ := stepCore_accepts hs
    obtain ⟨-, hring', hwp', hfill'⟩ := stepCore_accepts (s := s.withRing r n) hs
    refine ⟨⟨_, _, stepCore_withRing hread hs⟩, fun j _ => ?_⟩
    rw [hist_congr hring hwp hfill, hist_congr hring' hwp' hfill']
    exact hread j
  · have ht : t.fault ≠ none := by
      obtain ⟨⟨r, n, rfl⟩, -⟩ := h
      exact hs
    rw [stepCore_eq_ite, if_neg hs, stepCore_eq_ite, if_neg ht]
    exact h.clearEvents

/-- Every kind of cycle keeps the record the same. -/
theorem step_sameRecord {s t s' : State} (h : SameRecord s t) (hstep : step s = .next s') :
    ∃ t', step t = .next t' ∧ SameRecord s' t' := by
  obtain ⟨hinput, -, hcap⟩ := h.frame
  have hport : t.port = s.port := by rw [State.port, hinput, State.port]
  rw [step_eq t, hport]
  refine ⟨_, rfl, ?_⟩
  obtain ⟨hr, rfl⟩ | ⟨hr, hv, rfl⟩ | ⟨hr, hv, rfl⟩ := step_cases hstep
  · rw [if_pos hr]
    exact (resetCore_sameRecord hinput hcap).consumeInput
  · rw [if_neg (by simp [hr]), if_pos hv]
    exact h.stepCore.consumeInput
  · rw [if_neg (by simp [hr]), if_neg (by simp [hv])]
    exact h.clearEvents.consumeInput

/-- Events that cycles from the same record emit are the same, spans included (44_step.md R210). -/
theorem cycles_events_of_sameRecord (n : Nat) {s t : State} (h : SameRecord s t) :
    (cycles n s).2 = (cycles n t).2 := by
  induction n generalizing s t with
  | zero => rfl
  | succ n ih =>
    obtain ⟨s', hs⟩ := step_answers s
    obtain ⟨t', ht, h'⟩ := step_sameRecord h hs
    obtain ⟨-, hout, -⟩ := h'.frame
    rw [cycles_succ n hs, cycles_succ n ht, ih h', hout]

/-- Settles O41: RESET leaves the same record whatever was before (`resetCore_sameRecord`), and every cycle keeps it. -/
theorem resetForgetsEverything : Obligations.ResetForgetsEverything := by
  intro s t r ps hr hcap
  rw [pass_reset_cons hr, pass_reset_cons hr]
  have h : SameRecord (resetCore { s with input := ps }) (resetCore { t with input := ps }) :=
    resetCore_sameRecord rfl hcap.symm
  exact cycles_events_of_sameRecord ps.length h

end Sys2Proof.Machine
